-- ==== Sys2Proof/Word.lean ====
section
/-! DEFINITION. The bit-vector widths of the block (00_scope.md R6, 30_encoding.md R71). -/

namespace Sys2Proof

/-- A byte: a V register, a timer, a byte of memory (R6 `V_WIDTH`, `TIMER_WIDTH`). -/
abbrev Byte := BitVec 8

/-- A 16-bit word: I, PC, a return address, an opcode (R6). -/
abbrev Word := BitVec 16

/-- A register index, the 4-bit fields x and y (R20, R71). -/
abbrev Reg := BitVec 4

/-- The 4-bit row count n of Draw (R71). -/
abbrev RowCount := BitVec 4

/-- The 12-bit address field nnn (R71). -/
abbrev Addr := BitVec 12

/-- One framebuffer row of 64 columns (R34). -/
abbrev FbRow := BitVec 64

/-- VF, the flag register, is V15 (R25). -/
abbrev vf : Reg := 0xF#4

end Sys2Proof
end

