-- ==== Sys2Proof/Syntax.lean ====
section
/-! DEFINITION. The 34 operations of spec/opcode_table.json (30_encoding.md R75), one constructor a row, and
the names under which the decoder rejects an opcode. -/

namespace Sys2Proof

/-- One operation with its fields. The field types are the widths of R71, so every term names existing
registers and immediates an opcode can hold. The shifts keep the y field the decoder ignores (R78), so that
no bit of an opcode is lost. -/
inductive Instr where
  /-- 00E0 (R180) -/
  | clearScreen
  /-- 00EE (R112) -/
  | ret
  /-- 1nnn (R113) -/
  | jump (nnn : Addr)
  /-- 2nnn (R114) -/
  | call (nnn : Addr)
  /-- 3xkk (R115) -/
  | skipIfEqual (x : Reg) (kk : Byte)
  /-- 4xkk (R116) -/
  | skipIfNotEqual (x : Reg) (kk : Byte)
  /-- 5xy0 (R117) -/
  | skipIfVxEqVy (x y : Reg)
  /-- 6xkk (R133) -/
  | loadImmediate (x : Reg) (kk : Byte)
  /-- 7xkk (R134) -/
  | addImmediate (x : Reg) (kk : Byte)
  /-- 8xy0 (R135) -/
  | move (x y : Reg)
  /-- 8xy1 (R136) -/
  | or (x y : Reg)
  /-- 8xy2 (R137) -/
  | and (x y : Reg)
  /-- 8xy3 (R138) -/
  | xor (x y : Reg)
  /-- 8xy4 (R139) -/
  | add (x y : Reg)
  /-- 8xy5 (R140) -/
  | subXY (x y : Reg)
  /-- 8xy6 (R141) -/
  | shiftRight (x y : Reg)
  /-- 8xy7 (R142) -/
  | subYX (x y : Reg)
  /-- 8xyE (R143) -/
  | shiftLeft (x y : Reg)
  /-- 9xy0 (R118) -/
  | skipIfVxNeVy (x y : Reg)
  /-- Annn (R160) -/
  | setI (nnn : Addr)
  /-- Bnnn (R119) -/
  | jumpPlusV0 (nnn : Addr)
  /-- Cxkk (R144) -/
  | random (x : Reg) (kk : Byte)
  /-- Dxyn (R183) -/
  | draw (x y : Reg) (n : RowCount)
  /-- Ex9E (R202) -/
  | skipIfKeyDown (x : Reg)
  /-- ExA1 (R203) -/
  | skipIfKeyUp (x : Reg)
  /-- Fx07 (R198) -/
  | loadDelayTimer (x : Reg)
  /-- Fx0A (R204) -/
  | waitKey (x : Reg)
  /-- Fx15 (R199) -/
  | setDelayTimer (x : Reg)
  /-- Fx18 (R200) -/
  | setSoundTimer (x : Reg)
  /-- Fx1E (R162) -/
  | addToI (x : Reg)
  /-- Fx29 (R163) -/
  | loadFontAddress (x : Reg)
  /-- Fx33 (R164) -/
  | storeBCD (x : Reg)
  /-- Fx55 (R165) -/
  | storeRegisters (x : Reg)
  /-- Fx65 (R166) -/
  | loadRegisters (x : Reg)
  deriving DecidableEq, Repr

/-- Why a word is no operation: the six groups of Undefined opcodes of R76, and fewer than two bytes (R70). -/
inductive Reject where
  /-- 0x0000-0x0FFF except 0x00E0 and 0x00EE. -/
  | undefinedGroup0
  /-- 5xyN with N other than 0. -/
  | undefinedGroup5
  /-- 8xyN with N one of 8, 9, A, B, C, D, F. -/
  | undefinedGroup8
  /-- 9xyN with N other than 0. -/
  | undefinedGroup9
  /-- ExKK with KK other than 9E and A1. -/
  | undefinedGroupE
  /-- FxKK with KK none of the nine function bytes. -/
  | undefinedGroupF
  /-- Fewer than two bytes were given; no opcode at all. -/
  | truncated
  deriving DecidableEq, Repr

end Sys2Proof
end

