-- ==== Sys2Proof/WellFormed.lean ====
section
/-! DEFINITION. Which 16-bit words are opcodes of an operation, said twice without the decoder: by the list of
exceptions of 30_encoding.md R76, and by the match and mask of each row of spec/opcode_table.json. An `Instr` needs
no check of its own: its field types are exactly the widths of R71, so every term is well formed. -/

namespace Sys2Proof

/-- The six checks of R76: an opcode is well formed unless it falls in one of the listed classes. -/
def wellFormedWord (w : Word) : Bool :=
  let t := (w >>> 12).toNat
  let n := w.toNat % 16
  let kk := w.toNat % 256
  let ok0 := t != 0 || w == 0x00E0#16 || w == 0x00EE#16
  let ok5 := t != 5 || n == 0
  let ok8 := t != 8 || !([0x8, 0x9, 0xA, 0xB, 0xC, 0xD, 0xF].contains n)
  let ok9 := t != 9 || n == 0
  let okE := t != 0xE || [0x9E, 0xA1].contains kk
  let okF := t != 0xF || [0x07, 0x0A, 0x15, 0x18, 0x1E, 0x29, 0x33, 0x55, 0x65].contains kk
  ok0 && ok5 && ok8 && ok9 && okE && okF

/-- A row of the opcode table: the mnemonic, the fixed bits (`match` in the table) and the mask of fixed bits. -/
structure OpcodeRow where
  mnemonic : String
  fixed : Word
  mask : Word
  deriving DecidableEq, Repr

/-- The word has the row's fixed bits. -/
def OpcodeRow.fits (r : OpcodeRow) (w : Word) : Bool := w &&& r.mask == r.fixed

/-- The rows of top nibbles 0 to 7. -/
def opcodeTableLow : List OpcodeRow :=
  [⟨"ClearScreen", 0x00E0, 0xFFFF⟩, ⟨"Return", 0x00EE, 0xFFFF⟩, ⟨"Jump", 0x1000, 0xF000⟩,
   ⟨"Call", 0x2000, 0xF000⟩, ⟨"SkipIfEqual", 0x3000, 0xF000⟩, ⟨"SkipIfNotEqual", 0x4000, 0xF000⟩,
   ⟨"SkipIfVxEqVy", 0x5000, 0xF00F⟩, ⟨"LoadImmediate", 0x6000, 0xF000⟩, ⟨"AddImmediate", 0x7000, 0xF000⟩]

/-- The rows of top nibble 8. -/
def opcodeTable8 : List OpcodeRow :=
  [⟨"Move", 0x8000, 0xF00F⟩, ⟨"Or", 0x8001, 0xF00F⟩, ⟨"And", 0x8002, 0xF00F⟩, ⟨"Xor", 0x8003, 0xF00F⟩,
   ⟨"Add", 0x8004, 0xF00F⟩, ⟨"SubXY", 0x8005, 0xF00F⟩, ⟨"ShiftRight", 0x8006, 0xF00F⟩,
   ⟨"SubYX", 0x8007, 0xF00F⟩, ⟨"ShiftLeft", 0x800E, 0xF00F⟩]

/-- The rows of top nibbles 9 to F. -/
def opcodeTableHigh : List OpcodeRow :=
  [⟨"SkipIfVxNeVy", 0x9000, 0xF00F⟩, ⟨"SetI", 0xA000, 0xF000⟩, ⟨"JumpPlusV0", 0xB000, 0xF000⟩,
   ⟨"Random", 0xC000, 0xF000⟩, ⟨"Draw", 0xD000, 0xF000⟩, ⟨"SkipIfKeyDown", 0xE09E, 0xF0FF⟩,
   ⟨"SkipIfKeyUp", 0xE0A1, 0xF0FF⟩, ⟨"LoadDelayTimer", 0xF007, 0xF0FF⟩, ⟨"WaitKey", 0xF00A, 0xF0FF⟩,
   ⟨"SetDelayTimer", 0xF015, 0xF0FF⟩, ⟨"SetSoundTimer", 0xF018, 0xF0FF⟩, ⟨"AddToI", 0xF01E, 0xF0FF⟩,
   ⟨"LoadFontAddress", 0xF029, 0xF0FF⟩, ⟨"StoreBCD", 0xF033, 0xF0FF⟩, ⟨"StoreRegisters", 0xF055, 0xF0FF⟩,
   ⟨"LoadRegisters", 0xF065, 0xF0FF⟩]

/-- spec/opcode_table.json: mnemonic, match and mask of all 34 rows, in the table's order. -/
def opcodeTable : List OpcodeRow := opcodeTableLow ++ opcodeTable8 ++ opcodeTableHigh

/-- Some row of the opcode table fits the word. -/
def tableWord (w : Word) : Bool := opcodeTable.any (fun r => r.fits w)

/-- The instruction's name in spec/opcode_table.json. -/
def Instr.mnemonic : Instr → String
  | .clearScreen => "ClearScreen"
  | .ret => "Return"
  | .jump _ => "Jump"
  | .call _ => "Call"
  | .skipIfEqual _ _ => "SkipIfEqual"
  | .skipIfNotEqual _ _ => "SkipIfNotEqual"
  | .skipIfVxEqVy _ _ => "SkipIfVxEqVy"
  | .loadImmediate _ _ => "LoadImmediate"
  | .addImmediate _ _ => "AddImmediate"
  | .move _ _ => "Move"
  | .or _ _ => "Or"
  | .and _ _ => "And"
  | .xor _ _ => "Xor"
  | .add _ _ => "Add"
  | .subXY _ _ => "SubXY"
  | .shiftRight _ _ => "ShiftRight"
  | .subYX _ _ => "SubYX"
  | .shiftLeft _ _ => "ShiftLeft"
  | .skipIfVxNeVy _ _ => "SkipIfVxNeVy"
  | .setI _ => "SetI"
  | .jumpPlusV0 _ => "JumpPlusV0"
  | .random _ _ => "Random"
  | .draw _ _ _ => "Draw"
  | .skipIfKeyDown _ => "SkipIfKeyDown"
  | .skipIfKeyUp _ => "SkipIfKeyUp"
  | .loadDelayTimer _ => "LoadDelayTimer"
  | .waitKey _ => "WaitKey"
  | .setDelayTimer _ => "SetDelayTimer"
  | .setSoundTimer _ => "SetSoundTimer"
  | .addToI _ => "AddToI"
  | .loadFontAddress _ => "LoadFontAddress"
  | .storeBCD _ => "StoreBCD"
  | .storeRegisters _ => "StoreRegisters"
  | .loadRegisters _ => "LoadRegisters"

end Sys2Proof
end

