-- ==== Sys2Proof/Decode.lean ====
section
/-! DEFINITION. The instruction decoder, a pure total function of the opcode (30_encoding.md R74, R75), decoding
from bytes with the high byte first (20_memory.md R53, log 3), and the encoder written from the formats of R72. -/

namespace Sys2Proof

/-- Top nibble t = op[15:12] (R71). -/
def fieldT (op : Word) : BitVec 4 := op.extractLsb' 12 4

/-- x = op[11:8] (R71). -/
def fieldX (op : Word) : Reg := op.extractLsb' 8 4

/-- y = op[7:4] (R71). -/
def fieldY (op : Word) : Reg := op.extractLsb' 4 4

/-- n = op[3:0] (R71). -/
def fieldN (op : Word) : RowCount := op.extractLsb' 0 4

/-- kk = op[7:0] (R71). -/
def fieldKK (op : Word) : Byte := op.extractLsb' 0 8

/-- nnn = op[11:0] (R71). -/
def fieldNNN (op : Word) : Addr := op.extractLsb' 0 12

/-- Top nibble 0: the whole opcode is tested (R75). -/
def decodeGroup0 (op : Word) : Except Reject Instr :=
  if op = 0x00E0#16 then .ok .clearScreen
  else if op = 0x00EE#16 then .ok .ret
  else .error .undefinedGroup0

/-- Top nibble 5: the low nibble must be 0 (R75, C6). -/
def decodeGroup5 (op : Word) : Except Reject Instr :=
  if fieldN op = 0#4 then .ok (.skipIfVxEqVy (fieldX op) (fieldY op)) else .error .undefinedGroup5

/-- Top nibble 8: dispatch on the low nibble (R75). -/
def decodeGroup8 (op : Word) : Except Reject Instr :=
  match (fieldN op).toNat with
  | 0x0 => .ok (.move (fieldX op) (fieldY op))
  | 0x1 => .ok (.or (fieldX op) (fieldY op))
  | 0x2 => .ok (.and (fieldX op) (fieldY op))
  | 0x3 => .ok (.xor (fieldX op) (fieldY op))
  | 0x4 => .ok (.add (fieldX op) (fieldY op))
  | 0x5 => .ok (.subXY (fieldX op) (fieldY op))
  | 0x6 => .ok (.shiftRight (fieldX op) (fieldY op))
  | 0x7 => .ok (.subYX (fieldX op) (fieldY op))
  | 0xE => .ok (.shiftLeft (fieldX op) (fieldY op))
  | _ => .error .undefinedGroup8

/-- Top nibble 9: the low nibble must be 0 (R75, C6). -/
def decodeGroup9 (op : Word) : Except Reject Instr :=
  if fieldN op = 0#4 then .ok (.skipIfVxNeVy (fieldX op) (fieldY op)) else .error .undefinedGroup9

/-- Top nibble E: dispatch on the low byte (R75). -/
def decodeGroupE (op : Word) : Except Reject Instr :=
  match (fieldKK op).toNat with
  | 0x9E => .ok (.skipIfKeyDown (fieldX op))
  | 0xA1 => .ok (.skipIfKeyUp (fieldX op))
  | _ => .error .undefinedGroupE

/-- Top nibble F: dispatch on the low byte (R75). -/
def decodeGroupF (op : Word) : Except Reject Instr :=
  match (fieldKK op).toNat with
  | 0x07 => .ok (.loadDelayTimer (fieldX op))
  | 0x0A => .ok (.waitKey (fieldX op))
  | 0x15 => .ok (.setDelayTimer (fieldX op))
  | 0x18 => .ok (.setSoundTimer (fieldX op))
  | 0x1E => .ok (.addToI (fieldX op))
  | 0x29 => .ok (.loadFontAddress (fieldX op))
  | 0x33 => .ok (.storeBCD (fieldX op))
  | 0x55 => .ok (.storeRegisters (fieldX op))
  | 0x65 => .ok (.loadRegisters (fieldX op))
  | _ => .error .undefinedGroupF

/-- The decoder (R74): dispatch on the top nibble (R75). -/
def decode (op : Word) : Except Reject Instr :=
  match (fieldT op).toNat with
  | 0x0 => decodeGroup0 op
  | 0x1 => .ok (.jump (fieldNNN op))
  | 0x2 => .ok (.call (fieldNNN op))
  | 0x3 => .ok (.skipIfEqual (fieldX op) (fieldKK op))
  | 0x4 => .ok (.skipIfNotEqual (fieldX op) (fieldKK op))
  | 0x5 => decodeGroup5 op
  | 0x6 => .ok (.loadImmediate (fieldX op) (fieldKK op))
  | 0x7 => .ok (.addImmediate (fieldX op) (fieldKK op))
  | 0x8 => decodeGroup8 op
  | 0x9 => decodeGroup9 op
  | 0xA => .ok (.setI (fieldNNN op))
  | 0xB => .ok (.jumpPlusV0 (fieldNNN op))
  | 0xC => .ok (.random (fieldX op) (fieldKK op))
  | 0xD => .ok (.draw (fieldX op) (fieldY op) (fieldN op))
  | 0xE => decodeGroupE op
  | _ => decodeGroupF op

/-- The opcode of two bytes, `mem[PC] ++ mem[PC+1]` (R53). -/
def opcodeOfBytes (hi lo : Byte) : Word := hi.setWidth 16 <<< 8 ||| lo.setWidth 16

/-- The two bytes of an opcode, the first at the lower address (R53). -/
def bytesOfOpcode (op : Word) : List Byte := [op.extractLsb' 8 8, op.extractLsb' 0 8]

/-- Decoding from bytes: exactly two bytes are taken (R70); fewer are rejected by name. -/
def decodeBytes : List Byte → Except Reject (Instr × List Byte)
  | hi :: lo :: rest => (decode (opcodeOfBytes hi lo)).map (fun i => (i, rest))
  | _ => .error .truncated

/-- Format A: a fixed nibble and nnn (R72). -/
def encodeA (t : BitVec 4) (nnn : Addr) : Word := t.setWidth 16 <<< 12 ||| nnn.setWidth 16

/-- Format XK: a fixed nibble, x and kk (R72); format X has a function byte for kk. -/
def encodeXK (t : BitVec 4) (x : Reg) (kk : Byte) : Word :=
  t.setWidth 16 <<< 12 ||| x.setWidth 16 <<< 8 ||| kk.setWidth 16

/-- Format XYN: a fixed nibble, x, y and n (R72); format XY has a function nibble for n. -/
def encodeXYN (t : BitVec 4) (x y : Reg) (n : BitVec 4) : Word :=
  t.setWidth 16 <<< 12 ||| x.setWidth 16 <<< 8 ||| y.setWidth 16 <<< 4 ||| n.setWidth 16

/-- The opcode of an instruction (R72, R75). -/
def encode : Instr → Word
  | .clearScreen => 0x00E0#16
  | .ret => 0x00EE#16
  | .jump nnn => encodeA 0x1 nnn
  | .call nnn => encodeA 0x2 nnn
  | .skipIfEqual x kk => encodeXK 0x3 x kk
  | .skipIfNotEqual x kk => encodeXK 0x4 x kk
  | .skipIfVxEqVy x y => encodeXYN 0x5 x y 0x0
  | .loadImmediate x kk => encodeXK 0x6 x kk
  | .addImmediate x kk => encodeXK 0x7 x kk
  | .move x y => encodeXYN 0x8 x y 0x0
  | .or x y => encodeXYN 0x8 x y 0x1
  | .and x y => encodeXYN 0x8 x y 0x2
  | .xor x y => encodeXYN 0x8 x y 0x3
  | .add x y => encodeXYN 0x8 x y 0x4
  | .subXY x y => encodeXYN 0x8 x y 0x5
  | .shiftRight x y => encodeXYN 0x8 x y 0x6
  | .subYX x y => encodeXYN 0x8 x y 0x7
  | .shiftLeft x y => encodeXYN 0x8 x y 0xE
  | .skipIfVxNeVy x y => encodeXYN 0x9 x y 0x0
  | .setI nnn => encodeA 0xA nnn
  | .jumpPlusV0 nnn => encodeA 0xB nnn
  | .random x kk => encodeXK 0xC x kk
  | .draw x y n => encodeXYN 0xD x y n
  | .skipIfKeyDown x => encodeXK 0xE x 0x9E
  | .skipIfKeyUp x => encodeXK 0xE x 0xA1
  | .loadDelayTimer x => encodeXK 0xF x 0x07
  | .waitKey x => encodeXK 0xF x 0x0A
  | .setDelayTimer x => encodeXK 0xF x 0x15
  | .setSoundTimer x => encodeXK 0xF x 0x18
  | .addToI x => encodeXK 0xF x 0x1E
  | .loadFontAddress x => encodeXK 0xF x 0x29
  | .storeBCD x => encodeXK 0xF x 0x33
  | .storeRegisters x => encodeXK 0xF x 0x55
  | .loadRegisters x => encodeXK 0xF x 0x65

/-- The bytes of an instruction as memory holds them (R53). -/
def encodeBytes (i : Instr) : List Byte := bytesOfOpcode (encode i)

/-- The opcode whose bits are w as spec/opcode_table.json numbers them; bits at or above nbits are 0. -/
def tableOpcode (nbits w : Nat) : Word := BitVec.ofNat 16 (w % 2 ^ nbits)

/-- The instruction the decoder reads from the bytes of a table word. -/
def decodeTableWord (nbits w : Nat) : Option Instr :=
  match decodeBytes (bytesOfOpcode (tableOpcode nbits w)) with
  | .ok (i, _) => some i
  | .error _ => none

end Sys2Proof
end

