-- ==== Sys2Proof/Machine/Params.lean ====
section
/-! DEFINITION. The block's parameters: constants with the spec's value (00_scope.md R6, R7), and the arguments a
model takes with the spec's default (93_implementation_defined.md Part 3; log 1). -/

namespace Sys2Proof.Machine

/-- `MEM_SIZE` = 4095 bytes (R6, R50, D34; log 2). -/
def memSize : Nat := 4095

/-- `MEM_MAX` = 0xFFE, the last address (R6). -/
def memMax : Nat := memSize - 1

/-- `PROGRAM_BASE` = `PC_RESET` = 0x200 (R6). -/
def programBase : Nat := 0x200

/-- `PROGRAM_MAX_LEN` = `MEM_SIZE - 0x200` = 3583 bytes (R6). -/
def programMaxLen : Nat := memSize - programBase

/-- `FONT_GLYPHS`: 16 glyphs of 5 bytes (R6). -/
def fontLength : Nat := 80

/-- The table of R33, 16 glyphs of 5 bytes: the default of `FONT_DATA` (D16, K2; PRESUMED by the spec, log 2). -/
def conventionalFont : List Byte :=
  [0xF0, 0x90, 0x90, 0x90, 0xF0, 0x20, 0x60, 0x20, 0x20, 0x70, 0xF0, 0x10, 0xF0, 0x80, 0xF0,
   0xF0, 0x10, 0xF0, 0x10, 0xF0] ++
  [0x90, 0x90, 0xF0, 0x10, 0x10, 0xF0, 0x80, 0xF0, 0x10, 0xF0, 0xF0, 0x80, 0xF0, 0x90, 0xF0,
   0xF0, 0x10, 0x20, 0x40, 0x40] ++
  [0xF0, 0x90, 0xF0, 0x90, 0xF0, 0xF0, 0x90, 0xF0, 0x10, 0xF0, 0xF0, 0x90, 0xF0, 0x90, 0x90,
   0xE0, 0x90, 0xE0, 0x90, 0xE0] ++
  [0xF0, 0x80, 0x80, 0x80, 0xF0, 0xE0, 0x90, 0x90, 0x90, 0xE0, 0xF0, 0x80, 0xF0, 0x80, 0xF0,
   0xF0, 0x80, 0xF0, 0x80, 0x80]

/-- `TIMER_MODE` (45_timers_keys.md R195, R196). -/
inductive TimerMode where
  | perStep
  | externalTick
  deriving DecidableEq, Repr

/-- `FX29_DIGIT_MAP` (43_index_memory.md R163, D17): the default low nibble, the alternative of D17 that leaves Vx
unmasked, or any map at all (`Config.fx29Digit`). -/
inductive DigitMap where
  | lowNibble
  | unmasked
  | anyMap
  deriving DecidableEq, Repr

/-- `SHIFT_XF` (42_alu.md R131, D12): whether a shift reads its source after or before its VF write. -/
inductive ShiftXf where
  | sequential
  | captured
  deriving DecidableEq, Repr

/-- `SHIFT_SRC` (D13, 93 U5): the register a shift shifts. -/
inductive ShiftSrc where
  | vx
  | vy
  deriving DecidableEq, Repr

/-- `FX1E_VF` (D11, 93 U21): VF after Fx1E with no 16-bit carry. -/
inductive Fx1eVf where
  | unchanged
  | clear
  deriving DecidableEq, Repr

/-- `SUB_TIE_VF` (D40, 93 U22): VF of a subtraction whose operands are equal. -/
inductive SubTieVf where
  | zero
  | one
  deriving DecidableEq, Repr

/-- `KEY_INDEX_MAP` (D18, 93 U9): the key a register value of 16 or more names. -/
inductive KeyIndexMap where
  | notPressed
  | lowNibble
  deriving DecidableEq, Repr

/-- The arguments the spec lets a model take. They are fixed for a machine: no step writes them. -/
structure Params where
  /-- `FONT_BASE`, the address of glyph 0: 0x000..0x1B0, so that the font ends below the program (R31, D15, U13) -/
  fontBase : Fin 0x1B1
  /-- `FONT_DATA`, the 80 glyph bytes (R33, D16, U13) -/
  fontData : Vector Byte fontLength
  timerMode : TimerMode
  digitMap : DigitMap
  shiftXf : ShiftXf
  shiftSrc : ShiftSrc
  fx1eVf : Fx1eVf
  subTieVf : SubTieVf
  keyIndexMap : KeyIndexMap
  deriving DecidableEq, Repr

/-- The defaults, "the value every rule of this spec uses" (93 Part 3). -/
def Params.spec : Params where
  fontBase := 0x000
  fontData := ⟨conventionalFont.toArray, rfl⟩
  timerMode := .perStep
  digitMap := .lowNibble
  shiftXf := .sequential
  shiftSrc := .vx
  fx1eVf := .unchanged
  subTieVf := .zero
  keyIndexMap := .notPressed

end Sys2Proof.Machine
end

