-- ==== Sys2Proof/Machine/State.lean ====
section
/-! DEFINITION. The state of the block as plain data (10_state.md), the reasons a step can stop, and the state after
`Reset` (R48). -/

namespace Sys2Proof.Machine

/-- The FSM's top-level state (R40). -/
inductive Status where
  | idle
  | run
  | waitKey
  | halted
  deriving DecidableEq, Repr

/-- The fatal conditions an operation of the block can `raise` (00_scope.md R11, 60_exceptions.md R215). The block takes
each by entering HALTED, which is a next state (R222; log 10), so `step` never answers with one: the type names the
conditions inside the meanings. -/
inductive Fault where
  /-- Register index outside 0..15 (R219). Raised by nobody: every index is a 4-bit field. Safe. -/
  | illegalRegister
  /-- Raised by Call with SP = 16 (R217); the info is PC. Taken as HALTED with ERROR = 3. Safe. -/
  | stackOverflow (pc : Word)
  /-- Raised by Return with SP = 0 (R218); the info is PC. Taken as HALTED with ERROR = 5. Safe. -/
  | stackUnderflow (pc : Word)
  /-- Raised by the fetch, Draw, StoreBCD, StoreRegisters and LoadRegisters on an address above 0xFFE (R220); the info
  is the first bad address, which no state keeps (R215). Taken as HALTED with ERROR = 6. Safe. -/
  | addressOutOfRange (addr : Nat)
  deriving DecidableEq, Repr

/-- Instructions without a meaning. -/
inductive Refusal where
  /-- Raised by an arm of `exec` whose instruction has no meaning yet. No arm is left so. Safe. -/
  | notModelled (mnemonic : String)
  deriving DecidableEq, Repr

/-- How the execute phase leaves PC (40_execution_loop.md R94). -/
inductive Advance where
  /-- PC + 2 -/
  | next
  /-- PC + 4 -/
  | skip
  /-- PC is the target -/
  | jump (target : Word)
  /-- PC stays; WaitKey with field x -/
  | wait (x : Reg)
  deriving DecidableEq, Repr

/-- What the host does in one instant between two steps (10_state.md R46). The type holds no move that breaks a duty of
R47: every move stands between steps. -/
inductive HostMove where
  /-- The host presents nothing: the loop takes its step, if it may. -/
  | quiet
  /-- `Reset` (R240). -/
  | reset
  /-- `Load(blob)` (R242). -/
  | load (blob : List Byte)
  /-- The host drives `run_enable` (R98). -/
  | setRunEnable (level : Bool)
  /-- The host drives `keys_down` (R201). -/
  | setKeysDown (mask : Word)
  /-- A `key_release` event with its mask (R205). -/
  | keyRelease (mask : Word)
  /-- The `tick` strobe (R196). -/
  | tick
  /-- `frame_ack` (R42). -/
  | frameAck
  /-- A write to the read-only HOST_STATUS (R45). -/
  | writeHostStatus (value : Word)
  deriving DecidableEq, Repr

/-- A `diag` pulse: the opcode and its PC (R46, R99). -/
structure Diag where
  opcode : Word
  pc : Word
  deriving DecidableEq, Repr

/-- Memory as the bytes that differ from the reset contents: addresses strictly rising (see `Memory.wf`). -/
abbrev Memory := List Host.Cell

/-- Everything the spec gives the block (R48), the two pulses of the last instant, the levels the host drives, and three
fields of the model's own: `script`, `draws`, `params`. -/
structure State where
  /-- V0..VF (R20) -/
  v : Vector Byte 16
  /-- I (R22) -/
  i : Word
  /-- PC (R23) -/
  pc : Word
  /-- SP, the depth of the stack, 0..16 (R27) -/
  sp : Fin 17
  /-- Stack[0..15] (R27) -/
  stack : Vector Word 16
  /-- DT (R29) -/
  dt : Byte
  /-- ST (R29) -/
  st : Byte
  /-- main memory (R30) -/
  mem : Memory
  /-- FB[0..31] (R34) -/
  fb : Vector FbRow 32
  /-- STATUS (R40) -/
  status : Status
  /-- WAIT_REG (R41) -/
  waitReg : Reg
  /-- REDRAW_PENDING (R42) -/
  redrawPending : Bool
  /-- ERROR (R43) -/
  error : BitVec 3
  /-- UNDEF_SEEN (R45) -/
  undefSeen : Bool
  /-- load_error (R46) -/
  loadError : Bool
  /-- output pulse of the last instant: `diag` (R46) -/
  diag : Option Diag
  /-- output pulse of the last instant: `step_done` (R101) -/
  stepDone : Bool
  /-- level driven by the host: `run_enable` (R98) -/
  runEnable : Bool
  /-- level driven by the host: `keys_down` (R201) -/
  keysDown : Word
  /-- the host's coming moves, the next one first (model's own, log 5); with none left it presents nothing -/
  script : List HostMove
  /-- how many times `rand_byte` was drawn (model's own, log 7) -/
  draws : Nat
  /-- the model arguments (model's own, log 1) -/
  params : Params
  deriving DecidableEq, Repr

/-- The state after power-on `Reset` (R48, R240). Memory lists nothing: an unlisted byte reads as the font or 0. The
stack's entries, the host's levels, the script, the counter and the arguments are the model's choices (logs 1, 5, 6, 7,
9, 15). -/
def State.reset : State where
  v := Vector.replicate 16 0
  i := 0
  pc := 0x200
  sp := 0
  stack := Vector.replicate 16 0
  dt := 0
  st := 0
  mem := []
  fb := Vector.replicate 32 0
  status := .idle
  waitReg := 0
  redrawPending := false
  error := 0
  undefSeen := false
  loadError := false
  diag := none
  stepDone := false
  runEnable := false
  keysDown := 0
  script := []
  draws := 0
  params := Params.spec

end Sys2Proof.Machine
end

