-- ==== Sys2Proof/Machine/Flags.lean ====
section
/-! DEFINITION. Every flag computation (10_state.md R26): the values VF takes, from the operands as they were before the
operation (42_alu.md R130). -/

namespace Sys2Proof.Machine

/-- A flag as the byte VF holds. -/
def flagByte (b : Bool) : Byte := if b then 1 else 0

/-- 8xy4: carry out of 8 bits (R139). -/
def addCarry (a b : Byte) : Bool := decide (0xFF < a.toNat + b.toNat)

/-- 8xy5 and 8xy7, for `a - b`: strictly greater; at the tie the argument SUB_TIE_VF, whose default is 0 (R140, R142,
D40). -/
def subFlag (p : Params) (a b : Byte) : Bool :=
  match p.subTieVf with
  | .zero => decide (b.toNat < a.toNat)
  | .one => decide (b.toNat ≤ a.toNat)

/-- 8xy6: bit 0 of the source (R141). -/
def shiftRightFlag (a : Byte) : Bool := a.getLsbD 0

/-- 8xyE: bit 7 of the source (R143). -/
def shiftLeftFlag (a : Byte) : Bool := a.getLsbD 7

/-- Fx1E: carry out of 16 bits (R162, C3). -/
def addIOverflow (i : Word) (b : Byte) : Bool := decide (0xFFFF < i.toNat + b.toNat)

/-- Dxyn: a mask turns a set pixel of the row unset (R182). -/
def collides (row mask : FbRow) : Bool := row &&& mask != 0

end Sys2Proof.Machine
end

