-- ==== Sys2Proof/Config.lean ====
section
/-! DEFINITION. The free values: constants with no body, so that no proof can see what they are. The parameters
with a value in the spec are in Sys2Proof/Machine/Params.lean. -/

namespace Sys2Proof

/-- The k-th value the host gives on `rand_byte` (42_alu.md R144, D22, 93 U3: `any value`; log 7). A free value:
a claim that needs a particular draw proves less than it seems to. -/
opaque Config.randByte : Nat → Byte

/-- The map `FX29_DIGIT_MAP` when the model argument is left free (43_index_memory.md R163, D17, 93 U8; log 8). -/
opaque Config.fx29Digit : Byte → Nat

end Sys2Proof
end

