-- ==== Sys2Proof/Machine/Ops.lean ====
section
/-! DEFINITION. The named operations over memory, registers, the stack, the timers and the FSM's own state: bounds
checks, the PC advance, taking a fatal condition and the two ways out of HALTED, the tick, the host's ports. -/

namespace Sys2Proof.Machine

/-! Memory (20_memory.md) -/

/-- What an unlisted byte reads as: the contents `Reset` and `Load` leave before the program is written, that is
`FONT_DATA` at `FONT_BASE` and 0 elsewhere (R31, R33, R48, R51). -/
def Memory.initial (ps : Params) (a : Nat) : Byte :=
  if h : ps.fontBase.val ≤ a ∧ a - ps.fontBase.val < fontLength then ps.fontData[a - ps.fontBase.val]'h.2 else 0

/-- One byte of memory. Every caller has checked `a ≤ MEM_MAX` (R52); above it there is nothing (log 17). -/
def Memory.read (ps : Params) : Memory → Nat → Byte
  | [], a => Memory.initial ps a
  | (c, b) :: rest, a => if a = c then b else Memory.read ps rest a

/-- The entry of one address in canonical form: none if the byte is the one an unlisted address reads as. -/
def Memory.entry (ps : Params) (a : Nat) (b : Byte) : Memory := if b = Memory.initial ps a then [] else [(a, b)]

/-- Put a byte into a list with rising addresses. -/
def Memory.put (ps : Params) : Memory → Nat → Byte → Memory
  | [], a, b => Memory.entry ps a b
  | (c, d) :: rest, a, b =>
    if a < c then Memory.entry ps a b ++ (c, d) :: rest
    else if a = c then Memory.entry ps a b ++ rest
    else (c, d) :: Memory.put ps rest a b

/-- Write one byte; an address that is not memory holds nothing (log 17). -/
def Memory.write (ps : Params) (m : Memory) (a : Nat) (b : Byte) : Memory :=
  if a ≤ memMax then Memory.put ps m a b else m

/-- Write bytes at increasing addresses (R55). -/
def Memory.writeBytes (ps : Params) : Memory → Nat → List Byte → Memory
  | m, _, [] => m
  | m, a, b :: rest => Memory.writeBytes ps (Memory.write ps m a b) (a + 1) rest

/-- Read n bytes at increasing addresses (R55). -/
def Memory.readBytes (ps : Params) (m : Memory) (a : Nat) : Nat → List Byte
  | 0 => []
  | n + 1 => Memory.read ps m a :: Memory.readBytes ps m (a + 1) n

/-- The canonical form: addresses strictly rising, each in memory, no byte equal to what the address reads as unlisted. -/
abbrev Memory.wf (ps : Params) (m : Memory) : Prop :=
  List.Pairwise (fun p q => p.1 < q.1) m ∧ ∀ p ∈ m, p.1 ≤ memMax ∧ p.2 ≠ Memory.initial ps p.1

/-- The byte at an address (R11 `MemRead`). -/
def State.byte (s : State) (a : Nat) : Byte := Memory.read s.params s.mem a

/-- The `count` bytes at an address and up (R55). -/
def State.bytes (s : State) (a count : Nat) : List Byte := Memory.readBytes s.params s.mem a count

/-- The bounds check of a fetch at PC (R91; its info is PC, DEDUCED, log 16). -/
def State.fetchFault (s : State) : Option Fault :=
  if memMax < s.pc.toNat + 1 then some (.addressOutOfRange s.pc.toNat) else none

/-- The bounds check of an instruction that moves `count` bytes at I (R52, R161): the sum is not wrapped, no byte means
no check (D43), and the info is the first address that is not memory. -/
def State.accessFault (s : State) (count : Nat) : Option Fault :=
  if 0 < count ∧ memMax < s.i.toNat + count - 1 then some (.addressOutOfRange (max s.i.toNat (memMax + 1))) else none

/-! Registers (10_state.md R20, R21) -/

/-- Read V[x]. -/
def State.reg (s : State) (x : Reg) : Byte := s.v[x.toNat]'x.isLt

/-- Write V[x]. -/
def State.setReg (s : State) (x : Reg) (b : Byte) : State := { s with v := s.v.set x.toNat b x.isLt }

/-- V0..Vx, in order. -/
def State.regsUpTo (s : State) (x : Reg) : List Byte := s.v.toList.take (x.toNat + 1)

/-- Write bytes into the registers from V[k] up. -/
def setRegsFrom (v : Vector Byte 16) (k : Nat) : List Byte → Vector Byte 16
  | [] => v
  | b :: rest => setRegsFrom (if h : k < 16 then v.set k b h else v) (k + 1) rest

/-- V[i] <- mem[I + i] for i in 0..x (R166). -/
def State.loadRegsUpTo (s : State) (x : Reg) : State :=
  { s with v := setRegsFrom s.v 0 (s.bytes s.i.toNat (x.toNat + 1)) }

/-- Write I (R22). -/
def State.setI (s : State) (w : Word) : State := { s with i := w }

/-- Write bytes at I and up (R55). -/
def State.storeAtI (s : State) (bytes : List Byte) : State :=
  { s with mem := Memory.writeBytes s.params s.mem s.i.toNat bytes }

/-! The call stack (10_state.md R27, 41_control_flow.md R111) -/

/-- `push(v)`. -/
def State.push (s : State) (w : Word) : Except Fault State :=
  if h : s.sp.val < 16 then
    .ok { s with stack := s.stack.set s.sp.val w h, sp := ⟨s.sp.val + 1, Nat.succ_lt_succ h⟩ }
  else .error (.stackOverflow s.pc)

/-- `pop()`. -/
def State.pop (s : State) : Except Fault (Word × State) :=
  if h : 0 < s.sp.val then
    .ok (s.stack[s.sp.val - 1]'(by have := s.sp.isLt; omega),
      { s with sp := ⟨s.sp.val - 1, Nat.lt_of_le_of_lt (Nat.sub_le _ _) s.sp.isLt⟩ })
  else .error (.stackUnderflow s.pc)

/-! The PC advance (40_execution_loop.md R94, R102) -/

/-- PC as the category leaves it; WAIT keeps PC and enters WAIT_KEY (R204). -/
def State.advance (s : State) : Advance → State
  | .next => { s with pc := s.pc + 2 }
  | .skip => { s with pc := s.pc + 4 }
  | .jump target => { s with pc := target }
  | .wait x => { s with waitReg := x, status := .waitKey }

/-- An execute phase that completes. -/
def complete (a : Advance) (s : State) : Host.Outcome State Fault Refusal := .next (s.advance a)

/-- SKIP when the condition holds, NEXT otherwise (41_control_flow.md R110). -/
def completeSkipIf (cond : Bool) (s : State) : Host.Outcome State Fault Refusal :=
  complete (if cond then .skip else .next) s

/-! Taking a fatal condition, and leaving it (60_exceptions.md) -/

/-- The code of each fatal condition (R215). Codes 1 and 4 are the two conditions that are not fatal to a run. -/
def Fault.code : Fault → BitVec 3
  | .illegalRegister => 2
  | .stackOverflow _ => 3
  | .stackUnderflow _ => 5
  | .addressOutOfRange _ => 6

/-- Entry into HALTED (R222): STATUS and ERROR, nothing else. -/
def State.halt (s : State) (f : Fault) : State := { s with status := .halted, error := f.code }

/-- `raise`: the trap entry as the next state (R11, R96). Callers pass the state before any write (R12). -/
def raise (f : Fault) (s : State) : Host.Outcome State Fault Refusal := .next (s.halt f)

/-- `Reset` (R240, R48): one of the two ways out of HALTED (R223). The host's levels, its script, the draw counter and
the arguments are not the block's, and stack entries at or above SP = 0 stay as they are (logs 5, 9, 23). -/
def State.powerOnReset (s : State) : State :=
  { State.reset with
    stack := s.stack, runEnable := s.runEnable, keysDown := s.keysDown, script := s.script
    draws := s.draws, params := s.params }

/-- `Load(blob)` (R242), the other way out of HALTED: the size check first (R216, R243), then the full reset, the blob at
0x200, STATUS = RUN. -/
def State.loadProgram (s : State) (blob : List Byte) : State :=
  if programMaxLen < blob.length then { s with loadError := true }
  else
    { s.powerOnReset with
      mem := Memory.writeBytes s.params [] programBase blob, pc := 0x200, loadError := false, status := .run }

/-! Timers (45_timers_keys.md R195, R196) -/

/-- A timer counts down toward 0 and stays there. -/
def countDown (t : Byte) : Byte := if t = 0 then 0 else t - 1

/-- The two lines of R195. -/
def State.tick (s : State) : State := { s with dt := countDown s.dt, st := countDown s.st }

/-- The tick phase of a step: nothing under EXTERNAL_TICK (R196). -/
def State.stepTick (s : State) : State :=
  match s.params.timerMode with
  | .perStep => s.tick
  | .externalTick => s

/-- The `tick` strobe: used under EXTERNAL_TICK only, in RUN and WAIT_KEY only (R46, R196). -/
def State.strobeTick (s : State) : State :=
  match s.params.timerMode, s.status with
  | .externalTick, .run => s.tick
  | .externalTick, .waitKey => s.tick
  | _, _ => s

/-- The end of a step after its PC advance, by the STATUS the execute phase left (R95, R96, R101, R102): a completed step
ticks and pulses `step_done`, a step that entered WAIT_KEY only pulses, a halting step does neither. -/
def State.finishStep (s : State) : State :=
  match s.status with
  | .run => { s.stepTick with stepDone := true }
  | .waitKey => { s with stepDone := true }
  | .idle => s
  | .halted => s

/-- The execute phase and PC advance of an Undefined opcode (R99): `diag`, UNDEF_SEEN, NEXT. -/
def State.undefinedOpcode (s : State) (op : Word) : State :=
  { s with diag := some { opcode := op, pc := s.pc }, undefSeen := true, pc := s.pc + 2 }

/-! Display state -/

/-- REDRAW_PENDING <- 1 (R42, R100). -/
def State.requestRedraw (s : State) : State := { s with redrawPending := true }

/-- `frame_ack` (R42, R100); in IDLE and HALTED every input but Reset and Load is ignored (R97, D41; log 12). -/
def State.frameAck (s : State) : State :=
  match s.status with
  | .run => { s with redrawPending := false }
  | .waitKey => { s with redrawPending := false }
  | .idle => s
  | .halted => s

/-! The host's inputs and outputs (10_state.md R46) -/

/-- The pulses are low unless this instant raises them (log 15). -/
def State.beginInstant (s : State) : State := { s with diag := none, stepDone := false }

/-- `random_byte()`: the host's next value, and the state after the draw (42_alu.md R144; log 7). -/
def State.drawByte (s : State) : Byte × State := (Config.randByte s.draws, { s with draws := s.draws + 1 })

/-- The index of the lowest set bit of a non-zero mask (R205, D19). -/
def lowestSetBit (m : Word) : Nat := ((List.range 16).find? (fun k => m.getLsbD k)).getD 0

/-- The completion step of a wait (R205). -/
def State.completeWait (s : State) (m : Word) : State :=
  let w := s.setReg s.waitReg (BitVec.ofNat 8 (lowestSetBit m))
  { ({ w with pc := w.pc + 2, status := .run } : State).stepTick with stepDone := true }

/-- A `key_release` event (R97, R98, R205): consumed only in WAIT_KEY with `run_enable` = 1 and a non-zero mask, else
dropped (log 14). -/
def State.keyRelease (s : State) (m : Word) : State :=
  if s.status = .waitKey ∧ s.runEnable = true ∧ m ≠ 0 then s.completeWait m else s

/-- `sound_active` (R206). -/
def State.soundActive (s : State) : Bool := s.st != 0

/-- `fb_read(r)`: one row (R46). -/
def State.fbRead (s : State) (r : Fin 32) : FbRow := s.fb[r]

/-- The framebuffer snapshot the host may take between steps (R63). -/
def State.snapshot (s : State) : List FbRow := s.fb.toList

/-- The 2-bit code of STATUS (R40). -/
def Status.code : Status → BitVec 2
  | .idle => 0
  | .run => 1
  | .waitKey => 2
  | .halted => 3

/-- HOST_STATUS, most significant field first (R45). -/
def State.hostStatus (s : State) : Word :=
  0#4 ++ s.waitReg ++ BitVec.ofBool s.undefSeen ++ BitVec.ofBool s.soundActive ++
    BitVec.ofBool s.redrawPending ++ s.error ++ s.status.code

end Sys2Proof.Machine
end

