-- ==== Sys2Proof/Machine/Operands.lean ====
section
/-! DEFINITION. Every operand form: addresses, the sum Bnnn jumps to, the font address, BCD digits, sprite rows, keys, and
the source of a shift. -/

namespace Sys2Proof.Machine

/-- `zext_16(nnn)` (30_encoding.md R73). -/
def zextAddr (nnn : Addr) : Word := nnn.setWidth 16

/-- `trunc_16(zext_16(nnn) + V[0])` (41_control_flow.md R119). -/
def State.plusV0 (s : State) (nnn : Addr) : Word := zextAddr nnn + (s.reg 0).setWidth 16

/-- `FX29_DIGIT_MAP` (43_index_memory.md R163, D17). -/
def fontDigit (p : Params) (b : Byte) : Nat :=
  match p.digitMap with
  | .lowNibble => b.toNat % 16
  | .unmasked => b.toNat
  | .anyMap => Config.fx29Digit b

/-- `FONT_BASE + 5 * d` in 16 bits (R163, R22; the reduction is DEDUCED, log 25). -/
def fontAddress (p : Params) (b : Byte) : Word := BitVec.ofNat 16 (p.fontBase.val + 5 * fontDigit p b)

/-- The hundreds, tens and ones of a byte (R164). -/
def bcdDigits (b : Byte) : List Byte :=
  [BitVec.ofNat 8 (b.toNat / 100), BitVec.ofNat 8 (b.toNat / 10 % 10), BitVec.ofNat 8 (b.toNat % 10)]

/-- `key_pressed(v)` (45_timers_keys.md R201, D18). -/
def State.keyPressed (s : State) (b : Byte) : Bool :=
  match s.params.keyIndexMap with
  | .notPressed => decide (b.toNat < 16) && s.keysDown.getLsbD b.toNat
  | .lowNibble => s.keysDown.getLsbD (b.toNat % 16)

/-- The register a shift takes as its source: Vx, or Vy under SHIFT_SRC = VY (42_alu.md R141, R143, D13). -/
def shiftSource (p : Params) (x y : Reg) : Reg :=
  match p.shiftSrc with
  | .vx => x
  | .vy => y

/-- The value a shift shifts, after `flag` is written to VF: read as it stands now, or as it was before that write under
SHIFT_XF = CAPTURED (R131, D12; how it combines with SHIFT_SRC is DEDUCED, log 21). -/
def State.shiftOperand (before afterFlag : State) (src : Reg) : Byte :=
  match before.params.shiftXf with
  | .sequential => afterFlag.reg src
  | .captured => before.reg src

/-- `rotr_64(v, k)` (44_display_blitter.md R181). -/
def rotr64 (v : FbRow) (k : Nat) : FbRow := (v >>> k) ||| (v <<< (64 - k))

/-- `place(s, x0)`: a sprite byte as a mask of the row, from column x0 to the right, wrapping (R181). -/
def place (b : Byte) (x0 : Nat) : FbRow := rotr64 (b.setWidth 64 <<< 56) x0

/-- One sprite row: the new row and whether a pixel went out (R182, R183). -/
def blitRow (row mask : FbRow) : FbRow × Bool := (row ^^^ mask, collides row mask)

/-- The rows of a sprite, top first: sprite row r goes to framebuffer row `(y + r) mod 32`; the flag is the OR over the
rows (R183). -/
def blit (fb : Vector FbRow 32) (x0 : Nat) : Nat → List Byte → Vector FbRow 32 × Bool
  | _, [] => (fb, false)
  | y, b :: rest =>
    let r : Fin 32 := ⟨y % 32, Nat.mod_lt _ (by decide)⟩
    let out := blitRow fb[r] (place b x0)
    let below := blit (fb.set r.val out.1 r.isLt) x0 (y + 1) rest
    (below.1, out.2 || below.2)

/-- The sprite of Draw: n bytes at I (R183). -/
def State.spriteBytes (s : State) (n : RowCount) : List Byte := s.bytes s.i.toNat n.toNat

end Sys2Proof.Machine
end

