-- ==== Sys2Proof/Machine/Alu.lean ====
section
/-! DEFINITION. Register arithmetic, logic, shifts and random (42_alu.md). Every instruction here returns NEXT and raises
nothing. -/

namespace Sys2Proof.Machine

/-- One result register, no flag (R132). -/
def writeResult (x : Reg) (b : Byte) (s : State) : Host.Outcome State Fault Refusal := complete .next (s.setReg x b)

/-- Add and the Subs: Vx first, VF last (R131). -/
def writeResultThenFlag (x : Reg) (b : Byte) (flag : Bool) (s : State) : Host.Outcome State Fault Refusal :=
  complete .next ((s.setReg x b).setReg vf (flagByte flag))

/-- The shifts: VF first, then Vx from the source as R131 says it is read. -/
def writeFlagThenShift (x y : Reg) (flag : Byte → Bool) (shift : Byte → Byte) (s : State) :
    Host.Outcome State Fault Refusal :=
  let src := shiftSource s.params x y
  let t := s.setReg vf (flagByte (flag (s.reg src)))
  complete .next (t.setReg x (shift (s.shiftOperand t src)))

/-- 6xkk (R133). -/
def execLoadImmediate (x : Reg) (kk : Byte) (s : State) : Host.Outcome State Fault Refusal := writeResult x kk s

/-- 7xkk: wraps, no flag (R134). -/
def execAddImmediate (x : Reg) (kk : Byte) (s : State) : Host.Outcome State Fault Refusal :=
  writeResult x (s.reg x + kk) s

/-- 8xy0 (R135). -/
def execMove (x y : Reg) (s : State) : Host.Outcome State Fault Refusal := writeResult x (s.reg y) s

/-- 8xy1 (R136). -/
def execOr (x y : Reg) (s : State) : Host.Outcome State Fault Refusal := writeResult x (s.reg x ||| s.reg y) s

/-- 8xy2 (R137). -/
def execAnd (x y : Reg) (s : State) : Host.Outcome State Fault Refusal := writeResult x (s.reg x &&& s.reg y) s

/-- 8xy3 (R138). -/
def execXor (x y : Reg) (s : State) : Host.Outcome State Fault Refusal := writeResult x (s.reg x ^^^ s.reg y) s

/-- 8xy4 (R139). -/
def execAdd (x y : Reg) (s : State) : Host.Outcome State Fault Refusal :=
  writeResultThenFlag x (s.reg x + s.reg y) (addCarry (s.reg x) (s.reg y)) s

/-- 8xy5 (R140). -/
def execSubXY (x y : Reg) (s : State) : Host.Outcome State Fault Refusal :=
  writeResultThenFlag x (s.reg x - s.reg y) (subFlag s.params (s.reg x) (s.reg y)) s

/-- 8xy6 (R141). -/
def execShiftRight (x y : Reg) (s : State) : Host.Outcome State Fault Refusal :=
  writeFlagThenShift x y shiftRightFlag (fun b => b >>> 1) s

/-- 8xy7 (R142). -/
def execSubYX (x y : Reg) (s : State) : Host.Outcome State Fault Refusal :=
  writeResultThenFlag x (s.reg y - s.reg x) (subFlag s.params (s.reg y) (s.reg x)) s

/-- 8xyE (R143). -/
def execShiftLeft (x y : Reg) (s : State) : Host.Outcome State Fault Refusal :=
  writeFlagThenShift x y shiftLeftFlag (fun b => b <<< 1) s

/-- Cxkk: one draw, masked (R144). -/
def execRandom (x : Reg) (kk : Byte) (s : State) : Host.Outcome State Fault Refusal :=
  writeResult x (s.drawByte.1 &&& kk) s.drawByte.2

end Sys2Proof.Machine
end

