-- ==== Sys2Proof/Machine/ControlFlow.lean ====
section
/-! DEFINITION. Control flow (41_control_flow.md): Return, Jump, Call, the skips on registers, JumpPlusV0. -/

namespace Sys2Proof.Machine

/-- 00EE: PC <- pop, then NEXT (R112, C1). -/
def execRet (s : State) : Host.Outcome State Fault Refusal :=
  match s.pop with
  | .ok (a, t) => complete .next { t with pc := a }
  | .error f => raise f s

/-- 1nnn (R113). -/
def execJump (nnn : Addr) (s : State) : Host.Outcome State Fault Refusal := complete (.jump (zextAddr nnn)) s

/-- 2nnn: the call's own address is pushed (R114). -/
def execCall (nnn : Addr) (s : State) : Host.Outcome State Fault Refusal :=
  match s.push s.pc with
  | .ok t => complete (.jump (zextAddr nnn)) t
  | .error f => raise f s

/-- 3xkk (R115). -/
def execSkipIfEqual (x : Reg) (kk : Byte) (s : State) : Host.Outcome State Fault Refusal :=
  completeSkipIf (s.reg x == kk) s

/-- 4xkk (R116). -/
def execSkipIfNotEqual (x : Reg) (kk : Byte) (s : State) : Host.Outcome State Fault Refusal :=
  completeSkipIf (s.reg x != kk) s

/-- 5xy0 (R117). -/
def execSkipIfVxEqVy (x y : Reg) (s : State) : Host.Outcome State Fault Refusal :=
  completeSkipIf (s.reg x == s.reg y) s

/-- 9xy0 (R118). -/
def execSkipIfVxNeVy (x y : Reg) (s : State) : Host.Outcome State Fault Refusal :=
  completeSkipIf (s.reg x != s.reg y) s

/-- Bnnn (R119). -/
def execJumpPlusV0 (nnn : Addr) (s : State) : Host.Outcome State Fault Refusal := complete (.jump (s.plusV0 nnn)) s

end Sys2Proof.Machine
end

