-- ==== Sys2Proof/Machine/Display.lean ====
section
/-! DEFINITION. Display: clear and sprite blit with collision (44_display_blitter.md). -/

namespace Sys2Proof.Machine

/-- 00E0 (R180). -/
def execClearScreen (s : State) : Host.Outcome State Fault Refusal :=
  complete .next ({ s with fb := Vector.replicate 32 0 } : State).requestRedraw

/-- The writes of Draw: the rows, VF last, the redraw level (R183). The coordinates are read before any write. -/
def State.drawSprite (s : State) (x y : Reg) (sprite : List Byte) : State :=
  let out := blit s.fb ((s.reg x).toNat % 64) (s.reg y).toNat sprite
  (({ s with fb := out.1 } : State).setReg vf (flagByte out.2)).requestRedraw

/-- Dxyn (R183). -/
def execDraw (x y : Reg) (n : RowCount) (s : State) : Host.Outcome State Fault Refusal :=
  match s.accessFault n.toNat with
  | some f => raise f s
  | none => complete .next (s.drawSprite x y (s.spriteBytes n))

end Sys2Proof.Machine
end

