-- ==== Sys2Proof/Machine/IndexMemory.lean ====
section
/-! DEFINITION. Index register, font, BCD and block transfers (43_index_memory.md). The bounds check stands before any
write (R161). -/

namespace Sys2Proof.Machine

/-- Annn (R160). -/
def execSetI (nnn : Addr) (s : State) : Host.Outcome State Fault Refusal := complete .next (s.setI (zextAddr nnn))

/-- VF after Fx1E: 1 on a 16-bit carry; otherwise not written, or 0 under FX1E_VF = CLEAR (R162, D11). -/
def State.setAddIFlag (s : State) (overflow : Bool) : State :=
  if overflow then s.setReg vf 1
  else
    match s.params.fx1eVf with
    | .unchanged => s
    | .clear => s.setReg vf 0

/-- Fx1E (R162). -/
def execAddToI (x : Reg) (s : State) : Host.Outcome State Fault Refusal :=
  complete .next ((s.setI (s.i + (s.reg x).setWidth 16)).setAddIFlag (addIOverflow s.i (s.reg x)))

/-- Fx29 (R163). -/
def execLoadFontAddress (x : Reg) (s : State) : Host.Outcome State Fault Refusal :=
  complete .next (s.setI (fontAddress s.params (s.reg x)))

/-- Fx33: I is not changed (R164). -/
def execStoreBCD (x : Reg) (s : State) : Host.Outcome State Fault Refusal :=
  match s.accessFault 3 with
  | some f => raise f s
  | none => complete .next (s.storeAtI (bcdDigits (s.reg x)))

/-- I <- trunc_16(I + x + 1) (R165, R166). -/
def State.bumpI (s : State) (x : Reg) : State := s.setI (s.i + BitVec.ofNat 16 (x.toNat + 1))

/-- Fx55 (R165). -/
def execStoreRegisters (x : Reg) (s : State) : Host.Outcome State Fault Refusal :=
  match s.accessFault (x.toNat + 1) with
  | some f => raise f s
  | none => complete .next ((s.storeAtI (s.regsUpTo x)).bumpI x)

/-- Fx65 (R166). -/
def execLoadRegisters (x : Reg) (s : State) : Host.Outcome State Fault Refusal :=
  match s.accessFault (x.toNat + 1) with
  | some f => raise f s
  | none => complete .next ((s.loadRegsUpTo x).bumpI x)

end Sys2Proof.Machine
end

