-- ==== Sys2Proof/Machine/TimersKeys.lean ====
section
/-! DEFINITION. Timers and keys (45_timers_keys.md). -/

namespace Sys2Proof.Machine

/-- Ex9E (R202). -/
def execSkipIfKeyDown (x : Reg) (s : State) : Host.Outcome State Fault Refusal :=
  completeSkipIf (s.keyPressed (s.reg x)) s

/-- ExA1 (R203). -/
def execSkipIfKeyUp (x : Reg) (s : State) : Host.Outcome State Fault Refusal :=
  completeSkipIf (!s.keyPressed (s.reg x)) s

/-- Fx07 (R198). -/
def execLoadDelayTimer (x : Reg) (s : State) : Host.Outcome State Fault Refusal := complete .next (s.setReg x s.dt)

/-- Fx0A, the entry of the wait (R204); its completion is `State.completeWait` (R205). -/
def execWaitKey (x : Reg) (s : State) : Host.Outcome State Fault Refusal := complete (.wait x) s

/-- Fx15 (R199). -/
def execSetDelayTimer (x : Reg) (s : State) : Host.Outcome State Fault Refusal :=
  complete .next { s with dt := s.reg x }

/-- Fx18 (R200). -/
def execSetSoundTimer (x : Reg) (s : State) : Host.Outcome State Fault Refusal :=
  complete .next { s with st := s.reg x }

end Sys2Proof.Machine
end

