-- ==== Sys2Proof/Machine/Dispatch.lean ====
section
/-! DEFINITION. The execute phase and the PC advance of each operation (40_execution_loop.md R93, R94): one arm a
constructor, in the table's order. -/

namespace Sys2Proof.Machine

def exec (i : Instr) (s : State) : Host.Outcome State Fault Refusal :=
  match i with
  | .clearScreen => Sys2Proof.Machine.execClearScreen s
  | .ret => Sys2Proof.Machine.execRet s
  | .jump nnn => Sys2Proof.Machine.execJump nnn s
  | .call nnn => Sys2Proof.Machine.execCall nnn s
  | .skipIfEqual x kk => Sys2Proof.Machine.execSkipIfEqual x kk s
  | .skipIfNotEqual x kk => Sys2Proof.Machine.execSkipIfNotEqual x kk s
  | .skipIfVxEqVy x y => Sys2Proof.Machine.execSkipIfVxEqVy x y s
  | .loadImmediate x kk => Sys2Proof.Machine.execLoadImmediate x kk s
  | .addImmediate x kk => Sys2Proof.Machine.execAddImmediate x kk s
  | .move x y => Sys2Proof.Machine.execMove x y s
  | .or x y => Sys2Proof.Machine.execOr x y s
  | .and x y => Sys2Proof.Machine.execAnd x y s
  | .xor x y => Sys2Proof.Machine.execXor x y s
  | .add x y => Sys2Proof.Machine.execAdd x y s
  | .subXY x y => Sys2Proof.Machine.execSubXY x y s
  | .shiftRight x y => Sys2Proof.Machine.execShiftRight x y s
  | .subYX x y => Sys2Proof.Machine.execSubYX x y s
  | .shiftLeft x y => Sys2Proof.Machine.execShiftLeft x y s
  | .skipIfVxNeVy x y => Sys2Proof.Machine.execSkipIfVxNeVy x y s
  | .setI nnn => Sys2Proof.Machine.execSetI nnn s
  | .jumpPlusV0 nnn => Sys2Proof.Machine.execJumpPlusV0 nnn s
  | .random x kk => Sys2Proof.Machine.execRandom x kk s
  | .draw x y n => Sys2Proof.Machine.execDraw x y n s
  | .skipIfKeyDown x => Sys2Proof.Machine.execSkipIfKeyDown x s
  | .skipIfKeyUp x => Sys2Proof.Machine.execSkipIfKeyUp x s
  | .loadDelayTimer x => Sys2Proof.Machine.execLoadDelayTimer x s
  | .waitKey x => Sys2Proof.Machine.execWaitKey x s
  | .setDelayTimer x => Sys2Proof.Machine.execSetDelayTimer x s
  | .setSoundTimer x => Sys2Proof.Machine.execSetSoundTimer x s
  | .addToI x => Sys2Proof.Machine.execAddToI x s
  | .loadFontAddress x => Sys2Proof.Machine.execLoadFontAddress x s
  | .storeBCD x => Sys2Proof.Machine.execStoreBCD x s
  | .storeRegisters x => Sys2Proof.Machine.execStoreRegisters x s
  | .loadRegisters x => Sys2Proof.Machine.execLoadRegisters x s

end Sys2Proof.Machine
end

