-- ==== Sys2Proof/Machine/Loop.lean ====
section
/-! DEFINITION. The execution loop (40_execution_loop.md): fetch, decode, execute, PC advance, tick; and what each move of
the host does (10_state.md R46, R97). -/

namespace Sys2Proof.Machine

/-- `mem[PC] ++ mem[PC+1]`, or AddressOutOfRange (R91, R53). -/
def fetch (s : State) : Except Fault Word :=
  match s.fetchFault with
  | some f => .error f
  | none => .ok (opcodeOfBytes (s.byte s.pc.toNat) (s.byte (s.pc.toNat + 1)))

/-- The end of a step around the outcome of its execute phase (R95, R102). -/
def finishOutcome : Host.Outcome State Fault Refusal → Host.Outcome State Fault Refusal
  | .next t => .next t.finishStep
  | .fault f => .fault f
  | .refused r => .refused r

/-- Decode and execute one opcode, with the end of the step (R92, R93, R99). -/
def runOpcode (op : Word) (s : State) : Host.Outcome State Fault Refusal :=
  match decode op with
  | .ok i => finishOutcome (exec i s)
  | .error _ => .next (s.undefinedOpcode op).finishStep

/-- A whole step in RUN (R102). -/
def loopStep (s : State) : Host.Outcome State Fault Refusal :=
  match fetch s with
  | .ok op => runOpcode op s
  | .error f => raise f s

/-- The loop's turn: a step is taken only in RUN with `run_enable` = 1; otherwise the state holds (R98; log 11). -/
def loopTurn (s : State) : Host.Outcome State Fault Refusal :=
  if s.status = .run ∧ s.runEnable = true then loopStep s else .next s

/-- What one move of the host does (R46, R97). -/
def hostMove (m : HostMove) (s : State) : Host.Outcome State Fault Refusal :=
  match m with
  | .quiet => loopTurn s
  | .reset => .next s.powerOnReset
  | .load blob => .next (s.loadProgram blob)
  | .setRunEnable level => .next { s with runEnable := level }
  | .setKeysDown mask => .next { s with keysDown := mask }
  | .keyRelease mask => .next (s.keyRelease mask)
  | .tick => .next s.strobeTick
  | .frameAck => .next s.frameAck
  | .writeHostStatus _ => .next s

/-- The move is a `Load`. -/
def HostMove.isLoad : HostMove → Bool
  | .quiet => false
  | .reset => false
  | .load _ => true
  | .setRunEnable _ => false
  | .setKeysDown _ => false
  | .keyRelease _ => false
  | .tick => false
  | .frameAck => false
  | .writeHostStatus _ => false

/-- The host's next move and the moves after it; with none left the host presents nothing (log 5). A host whose next
move is a `Load` waits with it while the loop runs: it presents nothing, and the `Load` stays its next move until
`run_enable` = 0 or STATUS is not RUN (R47, D29: no move of the host breaks the duty; log 13). -/
def nextMove (s : State) : HostMove × List HostMove :=
  match s.script with
  | [] => (.quiet, [])
  | m :: rest => if m.isLoad = true ∧ s.status = .run ∧ s.runEnable = true then (.quiet, m :: rest) else (m, rest)

/-- One instant of the block: the pulses go low, then the host's next move. -/
def instant (s : State) : Host.Outcome State Fault Refusal :=
  hostMove (nextMove s).1 { s.beginInstant with script := (nextMove s).2 }

/-- Where a word must stand to be fetched next: at PC, or at the program base if PC is not fetchable. -/
def fetchSite (s : State) : Word := if s.pc.toNat + 1 ≤ memMax then s.pc else 0x200

/-- The state in which the next instant fetches and runs the opcode: its two bytes at the fetch site, the loop enabled in
RUN, no host move before it (log 20). -/
def State.placeOpcode (s : State) (op : Word) : State :=
  { s with
    pc := fetchSite s, mem := Memory.writeBytes s.params s.mem (fetchSite s).toNat (bytesOfOpcode op)
    status := .run, runEnable := true, script := [] }

end Sys2Proof.Machine
end

