-- ==== Sys2Proof/Machine/Step.lean ====
section
/-! DEFINITION. The step function of the machine, one instant of the block, and the host's way to place an instruction. -/

namespace Sys2Proof.Machine

/-- One instant: a move of the host, or the loop's step (40_execution_loop.md R97, R102). -/
def step (s : State) : Host.Outcome State Fault Refusal := instant s

/-- The state with a table word stored where the next step fetches it. -/
def State.withFetchWord (s : State) (nbits w : Nat) : State := s.placeOpcode (tableOpcode nbits w)

end Sys2Proof.Machine
end

