-- ==== Sys2Proof/Safety.lean ====
section
/-! DEFINITION. The terms claims are stated in: what two states agree on, what each instruction may write, the invariant
of the machine, and the duties of the host. -/

namespace Sys2Proof.Machine

/-- The parts of the state beside the V registers. -/
inductive Part where
  | i
  | pc
  | stack
  | dt
  | st
  | mem
  | fb
  | status
  | waitReg
  | redrawPending
  | error
  | undefSeen
  | loadError
  | diag
  | stepDone
  | runEnable
  | keysDown
  | script
  | draws
  | params
  deriving DecidableEq, Repr

/-- Two states agree on a part; on memory, through the read of every byte. -/
def Part.same : Part → State → State → Prop
  | .i, s, t => t.i = s.i
  | .pc, s, t => t.pc = s.pc
  | .stack, s, t => t.sp = s.sp ∧ t.stack = s.stack
  | .dt, s, t => t.dt = s.dt
  | .st, s, t => t.st = s.st
  | .mem, s, t => ∀ a, t.byte a = s.byte a
  | .fb, s, t => t.fb = s.fb
  | .status, s, t => t.status = s.status
  | .waitReg, s, t => t.waitReg = s.waitReg
  | .redrawPending, s, t => t.redrawPending = s.redrawPending
  | .error, s, t => t.error = s.error
  | .undefSeen, s, t => t.undefSeen = s.undefSeen
  | .loadError, s, t => t.loadError = s.loadError
  | .diag, s, t => t.diag = s.diag
  | .stepDone, s, t => t.stepDone = s.stepDone
  | .runEnable, s, t => t.runEnable = s.runEnable
  | .keysDown, s, t => t.keysDown = s.keysDown
  | .script, s, t => t.script = s.script
  | .draws, s, t => t.draws = s.draws
  | .params, s, t => t.params = s.params

/-- Every part but the listed ones is as it was. -/
def Unchanged (except : List Part) (s t : State) : Prop := ∀ p, p ∉ except → p.same s t

/-- Every V register but the listed ones is as it was. -/
def RegsUnchanged (except : List Reg) (s t : State) : Prop := ∀ r, r ∉ except → t.reg r = s.reg r

/-- Every byte of memory outside the `count` bytes at `a` reads as it did. -/
def MemUnchangedOutside (a count : Nat) (s t : State) : Prop :=
  ∀ b, ¬(a ≤ b ∧ b < a + count) → t.byte b = s.byte b

/-- What entering HALTED leaves: STATUS and ERROR set, everything else as it was (R222). -/
def HaltsWith (code : BitVec 3) (s t : State) : Prop :=
  t.status = .halted ∧ t.error = code ∧ Unchanged [.status, .error] s t ∧ RegsUnchanged [] s t

end Sys2Proof.Machine

namespace Sys2Proof

open Machine (Part)

/-- The bytes an instruction moves at I (20_memory.md R55). -/
def Instr.bytesMoved : Instr → Nat
  | .draw _ _ n => n.toNat
  | .storeBCD _ => 3
  | .storeRegisters x => x.toNat + 1
  | .loadRegisters x => x.toNat + 1
  | _ => 0

/-- The bytes an instruction stores at I (R55). -/
def Instr.bytesStored : Instr → Nat
  | .storeBCD _ => 3
  | .storeRegisters x => x.toNat + 1
  | _ => 0

/-- When an instruction raises its own fatal condition (60_exceptions.md R215, R224). -/
def Instr.RaisesIn (i : Instr) (s : Machine.State) : Prop :=
  match i with
  | .ret => s.sp.val = 0
  | .call _ => s.sp.val = 16
  | _ => 0 < i.bytesMoved ∧ 0xFFE < s.i.toNat + i.bytesMoved - 1

/-- The ERROR code of an instruction's own fatal condition (R215). -/
def Instr.raiseCode : Instr → BitVec 3
  | .ret => 5
  | .call _ => 3
  | _ => 6

/-- The V registers an instruction may write: its destination, VF where R26 lists it, V0..Vx for Fx65. -/
def Instr.regsWritten : Instr → List Reg
  | .loadImmediate x _ => [x]
  | .addImmediate x _ => [x]
  | .move x _ => [x]
  | .or x _ => [x]
  | .and x _ => [x]
  | .xor x _ => [x]
  | .add x _ => [x, vf]
  | .subXY x _ => [x, vf]
  | .shiftRight x _ => [x, vf]
  | .subYX x _ => [x, vf]
  | .shiftLeft x _ => [x, vf]
  | .random x _ => [x]
  | .draw _ _ _ => [vf]
  | .loadDelayTimer x => [x]
  | .addToI _ => [vf]
  | .loadRegisters x => (List.range (x.toNat + 1)).map (BitVec.ofNat 4)
  | _ => []

/-- The parts beside the V registers an instruction may write when it does not raise. -/
def Instr.partsWritten : Instr → List Part
  | .clearScreen => [.pc, .fb, .redrawPending]
  | .ret => [.pc, .stack]
  | .call _ => [.pc, .stack]
  | .setI _ => [.pc, .i]
  | .random _ _ => [.pc, .draws]
  | .draw _ _ _ => [.pc, .fb, .redrawPending]
  | .waitKey _ => [.waitReg, .status]
  | .setDelayTimer _ => [.pc, .dt]
  | .setSoundTimer _ => [.pc, .st]
  | .addToI _ => [.pc, .i]
  | .loadFontAddress _ => [.pc, .i]
  | .storeBCD _ => [.pc, .mem]
  | .storeRegisters _ => [.pc, .mem, .i]
  | .loadRegisters _ => [.pc, .i]
  | _ => [.pc]

end Sys2Proof

namespace Sys2Proof.Machine

/-- The host presents nothing in the next instant, so the loop has its turn. -/
def Quiet (s : State) : Prop := (nextMove s).1 = .quiet

/-- The state a move of the next instant acts on: pulses low, the move taken off the script. -/
def State.atInstant (s : State) : State := { s.beginInstant with script := (nextMove s).2 }

/-- The loop takes a step in the next instant (R98). -/
def Steps (s : State) : Prop := Quiet s ∧ s.status = .run ∧ s.runEnable = true

/-- The next step's fetch is inside memory and reads this opcode (R91). -/
def Fetches (s : State) (op : Word) : Prop :=
  s.pc.toNat + 1 ≤ 0xFFE ∧ op = opcodeOfBytes (s.byte s.pc.toNat) (s.byte (s.pc.toNat + 1))

/-- The invariant of every run (R24, R112, R215, and the canonical form of memory). -/
structure State.Inv (s : State) : Prop where
  /-- memory is in canonical form -/
  memWf : Memory.wf s.params s.mem
  /-- "Every PC value the rules can produce is at most 0x10FE" (R24) -/
  pcReach : s.pc.toNat ≤ 0x10FE
  /-- every live return address was a fetchable Call (R112) -/
  returns : ∀ k : Fin 16, k.val < s.sp.val → s.stack[k].toNat ≤ 0xFFD
  /-- a pending wait stands at a fetchable WaitKey (R204) -/
  waitPc : s.status = .waitKey → s.pc.toNat ≤ 0xFFD
  /-- ERROR is set exactly in HALTED (R43, R222, R223) -/
  haltedError : s.status = .halted ↔ s.error ≠ 0
  /-- only the fatal conditions with a path are ever recorded (R215, R219) -/
  errorCode : s.error ∈ [0, 3, 5, 6]

/-- The host's duty of R47: its next move is a Load only with the loop stopped, by `run_enable` = 0 or by a STATUS other
than RUN (log 13). -/
def State.hostKeepsDuty (s : State) : Bool :=
  match (nextMove s).1 with
  | .load _ => !(s.status == .run && s.runEnable)
  | _ => true

/-- What the tick phase of a completing step does to the timers, by TIMER_MODE (R195, R196). -/
def TimersTick (s t : State) : Prop :=
  match s.params.timerMode with
  | .perStep => t.dt.toNat = s.dt.toNat - 1 ∧ t.st.toNat = s.st.toNat - 1
  | .externalTick => t.dt = s.dt ∧ t.st = s.st

/-- Everything the block holds is at the value `Reset` leaves where R48 names one, but for PC's program (R240): the
registers, I, PC, the stack's depth, the timers, the framebuffer and the FSM's own state. -/
def ClearedRegisters (t : State) : Prop :=
  (∀ r, t.reg r = 0) ∧ t.i = 0 ∧ t.pc.toNat = 0x200 ∧ t.sp = 0 ∧ t.dt = 0 ∧ t.st = 0 ∧ (∀ r, t.fbRead r = 0) ∧
    t.waitReg = 0 ∧ t.redrawPending = false ∧ t.error = 0 ∧ t.undefSeen = false ∧ t.loadError = false

/-- Memory as `Reset` and `Load` seed it below the program and above its end: the glyph bytes FONT_DATA in the 80 bytes
at FONT_BASE, and 0 in every other byte that is not one of the `len` program bytes at 0x200 (R48). -/
def SeededMemory (len : Nat) (t : State) : Prop :=
  (∀ k : Fin 80, t.byte (t.params.fontBase.val + k.val) = t.params.fontData[k]) ∧
    ∀ a, a ≤ 0xFFE → ¬(t.params.fontBase.val ≤ a ∧ a < t.params.fontBase.val + 80) → ¬(0x200 ≤ a ∧ a < 0x200 + len) →
      t.byte a = 0

/-- Two states that differ at most in stack entries at or above SP (R28). -/
def SameButDeadStack (s t : State) : Prop :=
  t = { s with stack := t.stack } ∧ ∀ k : Fin 16, k.val < s.sp.val → t.stack[k] = s.stack[k]

end Sys2Proof.Machine
end

