-- ==== Sys2Proof/Certificates/Slice0/Obligations.lean ====
section
/-! DEFINITION. The statements for the provers, from the numbered rules of spec/. A statement whose hypothesis names a
state `t` with `exec i s = .next t` shuts nothing out: `exec` always answers a next state. -/

open Sys2Proof Sys2Proof.Machine

/-! Encoding (30_encoding.md) -/

/-- Decoding the opcode of an instruction gives the instruction, for every operand (R72, R75). -/
def Obligations.DecodeOfEncodeIsIdentity : Prop := ∀ i : Instr, decode (encode i) = .ok i

/-- Every opcode that decodes is the encoding of what it decodes to: no bit is dropped, y of the shifts included. -/
def Obligations.EncodeOfDecodeIsIdentity : Prop := ∀ (op : Word) (i : Instr), decode op = .ok i → encode i = op

/-- R76: exactly the listed opcodes are Undefined, and how many there are under each top nibble. -/
def Obligations.DecodesExactlyTheDefinedOpcodes : Prop :=
  (∀ op : Word, (∃ i, decode op = .ok i) ↔ wellFormedWord op = true) ∧
  ((List.range 16).map fun t => (List.range 4096).countP fun k => !wellFormedWord (BitVec.ofNat 16 (4096 * t + k))) =
    [4094, 0, 0, 0, 0, 3840, 0, 0, 1792, 3840, 0, 0, 0, 0, 4064, 3952]

/-- R75: every opcode fits at most one row of the table, the row of the operation it decodes to; an Undefined opcode
fits none. -/
def Obligations.EveryOpcodeFitsAtMostOneRow : Prop :=
  ∀ op : Word,
    (∀ r ∈ opcodeTable, ∀ r' ∈ opcodeTable, r.fits op = true → r'.fits op = true → r = r') ∧
    (∀ i, decode op = .ok i → ∃ r ∈ opcodeTable, r.mnemonic = i.mnemonic ∧ r.fits op = true) ∧
    (∀ e, decode op = .error e → ∀ r ∈ opcodeTable, r.fits op = false)

/-- Words written out from the patterns of R75, one of each family. -/
def Obligations.SampleWordsDecodeAsPatternsSay : Prop :=
  decode 0b0000000011101110#16 = .ok .ret ∧
  decode 0b0010001101000000#16 = .ok (.call 0x340) ∧
  decode 0b0110000100110011#16 = .ok (.loadImmediate 1 0x33) ∧
  decode 0b1000000100100101#16 = .ok (.subXY 1 2) ∧
  decode 0b1010001011110000#16 = .ok (.setI 0x2F0) ∧
  decode 0b1101000000010101#16 = .ok (.draw 0 1 5) ∧
  decode 0b1110000110011110#16 = .ok (.skipIfKeyDown 1) ∧
  decode 0b1111001100001010#16 = .ok (.waitKey 3) ∧
  decode 0b1111001001100101#16 = .ok (.loadRegisters 2) ∧
  decode 0b0000000111100000#16 = .error .undefinedGroup0

/-- R78: any y of the shifts gives the same result (with the shift source of the rules, Vx). -/
def Obligations.ShiftIgnoresItsYField : Prop :=
  ∀ (x y y' : Reg) (s : State), s.params.shiftSrc = .vx →
    exec (.shiftRight x y) s = exec (.shiftRight x y') s ∧ exec (.shiftLeft x y) s = exec (.shiftLeft x y') s

/-! The execution loop (40_execution_loop.md) -/

/-- When the bytes at PC decode to i, the step is `exec i` on the state of the instant, and then the end of the step: the
tick and `step_done` if it completed, `step_done` alone if it entered WAIT_KEY, nothing if it halted (R90-R95, R101,
R102). -/
def Obligations.StepRunsTheDecodedInstruction : Prop :=
  ∀ (s : State) (op : Word) (i : Instr) (t : State), Steps s → Fetches s op → decode op = .ok i →
    exec i s.atInstant = .next t →
    ∃ u, step s = .next u ∧
      (t.status = .run → TimersTick t u ∧ u.stepDone = true ∧ Unchanged [.dt, .st, .stepDone] t u ∧ RegsUnchanged [] t u) ∧
      (t.status = .waitKey → u = { t with stepDone := true }) ∧
      (t.status = .halted → u = t)

/-- R195: under PER_STEP the tick phase takes one off each timer that is not 0, and does nothing else. -/
def Obligations.PerStepTickCountsTimersDown : Prop :=
  ∀ s : State, s.params.timerMode = .perStep →
    (if s.dt = 0 then s.stepTick.dt = 0 else s.stepTick.dt.toNat + 1 = s.dt.toNat) ∧
    (if s.st = 0 then s.stepTick.st = 0 else s.stepTick.st.toNat + 1 = s.st.toNat) ∧
    Unchanged [.dt, .st] s s.stepTick ∧ RegsUnchanged [] s s.stepTick

/-- R196: under EXTERNAL_TICK the tick phase of a step does nothing, and each strobe ticks once, whenever STATUS is RUN or
WAIT_KEY; under PER_STEP, and in IDLE and HALTED, the strobe does nothing (R46, R97). -/
def Obligations.ExternalTickMovesTimersOnStrobesOnly : Prop :=
  (∀ s : State, s.params.timerMode = .externalTick → s.stepTick = s) ∧
  (∀ s : State, (nextMove s).1 = .tick → s.params.timerMode = .externalTick →
    s.status = .run ∨ s.status = .waitKey →
    ∃ u, step s = .next u ∧ u.dt.toNat = s.dt.toNat - 1 ∧ u.st.toNat = s.st.toNat - 1 ∧
      Unchanged [.dt, .st] s.atInstant u ∧ RegsUnchanged [] s u) ∧
  (∀ s : State, (nextMove s).1 = .tick →
    s.params.timerMode = .perStep ∨ s.status = .idle ∨ s.status = .halted → step s = .next s.atInstant)

/-- R91 (big-endian is K1, log 3): a fetch at PC ≥ 0xFFE halts with AddressOutOfRange; any other fetch is `mem[PC] ++ mem[PC+1]`. -/
def Obligations.FetchOutsideMemoryHalts : Prop :=
  (∀ s : State, Steps s → 0xFFE ≤ s.pc.toNat → ∃ u, step s = .next u ∧ HaltsWith 6 s.atInstant u) ∧
  (∀ s : State, s.pc.toNat < 0xFFE → ∃ op : Word, fetch s = .ok op ∧
    op.extractLsb' 8 8 = s.byte s.pc.toNat ∧ op.extractLsb' 0 8 = s.byte (s.pc.toNat + 1))

/-- R99: an Undefined opcode is a no-op with a `diag` pulse and UNDEF_SEEN; PC advances by 2 and the timers tick. -/
def Obligations.UndefinedOpcodeIsANoOpWithDiagnostic : Prop :=
  ∀ (s : State) (op : Word) (r : Reject), Steps s → Fetches s op → decode op = .error r →
    ∃ u, step s = .next u ∧ u.diag = some { opcode := op, pc := s.pc } ∧ u.undefSeen = true ∧ u.pc = s.pc + 2 ∧
      TimersTick s u ∧ u.stepDone = true ∧
      Unchanged [.diag, .undefSeen, .pc, .dt, .st, .stepDone] s.atInstant u ∧ RegsUnchanged [] s u

/-- R98: with `run_enable` = 0, and in IDLE, HALTED and WAIT_KEY, the loop takes no step and the state holds; a key
release that completes no wait (outside WAIT_KEY, with `run_enable` = 0, or with a zero mask) is dropped (log 14). In
every status the host's moves on `run_enable` and `keys_down` set their level and change nothing else (R46, R47). -/
def Obligations.NoStepUnlessRunningAndEnabled : Prop :=
  (∀ s : State, Quiet s → s.status ≠ .run ∨ s.runEnable = false → step s = .next s.atInstant) ∧
  (∀ (s : State) (m : Word), (nextMove s).1 = .keyRelease m →
    s.status ≠ .waitKey ∨ s.runEnable = false ∨ m = 0 → step s = .next s.atInstant) ∧
  (∀ (s : State) (level : Bool), (nextMove s).1 = .setRunEnable level →
    ∃ u, step s = .next u ∧ u.runEnable = level ∧ Unchanged [.runEnable] s.atInstant u ∧ RegsUnchanged [] s u) ∧
  (∀ (s : State) (mask : Word), (nextMove s).1 = .setKeysDown mask →
    ∃ u, step s = .next u ∧ u.keysDown = mask ∧ Unchanged [.keysDown] s.atInstant u ∧ RegsUnchanged [] s u)

/-- R97, every row, by the host's move of the instant: what STATUS becomes. A step enters WAIT_KEY exactly when it fetches
a WaitKey, and HALTED exactly when its fetch or its instruction raises (R215, R224). -/
def Obligations.StatusMovesOnlyAsTheTableSays : Prop :=
  ∀ s u : State, step s = .next u →
    match (nextMove s).1 with
    | .reset => u.status = .idle
    | .load blob => u.status = if blob.length ≤ 3583 then .run else s.status
    | .keyRelease m => u.status = if s.status = .waitKey ∧ s.runEnable = true ∧ m ≠ 0 then .run else s.status
    | .quiet =>
      if s.status = .run ∧ s.runEnable = true then
        u.status ≠ .idle ∧
        (u.status = .waitKey ↔ ∃ op x, Fetches s op ∧ decode op = .ok (.waitKey x)) ∧
        (u.status = .halted ↔ 0xFFE ≤ s.pc.toNat ∨ ∃ op i, Fetches s op ∧ decode op = .ok i ∧ i.RaisesIn s)
      else u.status = s.status
    | _ => u.status = s.status

/-- R223, R97, D41: in IDLE and HALTED every move but Reset and a successful Load leaves the block as it is (a move may
change the host's own levels, and a failed Load its `load_error`). -/
def Obligations.IdleAndHaltedLeftOnlyByResetOrLoad : Prop :=
  ∀ s u : State, s.status = .idle ∨ s.status = .halted → step s = .next u →
    (nextMove s).1 = .reset ∨ (∃ blob, (nextMove s).1 = .load blob ∧ blob.length ≤ 3583) ∨
    (Unchanged [.runEnable, .keysDown, .loadError] s.atInstant u ∧ RegsUnchanged [] s u ∧
      ((∀ level, (nextMove s).1 ≠ .setRunEnable level) → u.runEnable = s.runEnable) ∧
      ((∀ mask, (nextMove s).1 ≠ .setKeysDown mask) → u.keysDown = s.keysDown) ∧
      ((∀ blob, (nextMove s).1 ≠ .load blob) → u.loadError = s.loadError))

/-- R240: `Reset`, in any status, sets every piece of state to its reset value and cancels a pending wait; the machine
starts in such a state. The host's levels, the draws and the arguments are not the block's (log 23); the glyph bytes of
`SeededMemory` are the argument FONT_DATA (log 2). -/
def Obligations.ResetRestoresEveryResetValue : Prop :=
  (ClearedRegisters State.reset ∧ SeededMemory 0 State.reset ∧ State.reset.status = .idle) ∧
  (∀ s : State, (nextMove s).1 = .reset →
    ∃ u, step s = .next u ∧ ClearedRegisters u ∧ SeededMemory 0 u ∧ u.status = .idle ∧ u.runEnable = s.runEnable ∧
      u.keysDown = s.keysDown ∧ u.draws = s.draws ∧ u.params = s.params)

/-- R242, R243: a blob of at most 3583 bytes is loaded verbatim at 0x200 after a full reset, and STATUS is RUN; the glyph
bytes of `SeededMemory` are the argument FONT_DATA (log 2). R47, D29: no move of the host is a Load while the loop runs;
a host whose next move is a Load waits with it until the loop is stopped (the waiting is the model's, log 13). -/
def Obligations.LoadRunsItsProgram : Prop :=
  (∀ (s : State) (blob : List Byte), (nextMove s).1 = .load blob → blob.length ≤ 3583 →
    ∃ u, step s = .next u ∧ ClearedRegisters u ∧ SeededMemory blob.length u ∧ u.status = .run ∧
      (∀ k, k < blob.length → some (u.byte (0x200 + k)) = blob[k]?)) ∧
  (∀ s : State, s.hostKeepsDuty = true) ∧
  (∀ (s : State) (blob : List Byte) (rest : List HostMove), s.script = .load blob :: rest →
    (s.status = .run ∧ s.runEnable = true → Steps s ∧ s.atInstant.script = s.script) ∧
    (¬(s.status = .run ∧ s.runEnable = true) → (nextMove s).1 = .load blob ∧ s.atInstant.script = rest))

/-- R216: a blob of more than 3583 bytes changes nothing but `load_error`, in any status. -/
def Obligations.OversizedLoadOnlyRaisesLoadError : Prop :=
  ∀ (s : State) (blob : List Byte), (nextMove s).1 = .load blob → 3583 < blob.length →
    ∃ u, step s = .next u ∧ u.loadError = true ∧ Unchanged [.loadError] s.atInstant u ∧ RegsUnchanged [] s u

/-- R205: a key release with a non-zero mask ends the wait: the lowest key index goes to V[WAIT_REG], PC advances by 2,
STATUS is RUN, the timers tick. A zero mask is ignored. The wait ends only so, or by Reset or a successful Load. -/
def Obligations.KeyReleaseCompletesTheWait : Prop :=
  (∀ (s : State) (m : Word), (nextMove s).1 = .keyRelease m → s.status = .waitKey → s.runEnable = true → m ≠ 0 →
    ∃ u k, step s = .next u ∧ m.getLsbD k = true ∧ (∀ j, j < k → m.getLsbD j = false) ∧
      (u.reg s.waitReg).toNat = k ∧ RegsUnchanged [s.waitReg] s u ∧ u.pc = s.pc + 2 ∧ u.status = .run ∧
      TimersTick s u ∧ u.stepDone = true ∧ Unchanged [.pc, .status, .dt, .st, .stepDone] s.atInstant u) ∧
  (∀ (s : State) (m : Word), (nextMove s).1 = .keyRelease m → s.status = .waitKey → m = 0 →
    step s = .next s.atInstant) ∧
  (∀ s u : State, s.status = .waitKey → step s = .next u → u.status ≠ .waitKey →
    (∃ m, (nextMove s).1 = .keyRelease m ∧ m ≠ 0 ∧ s.runEnable = true) ∨ (nextMove s).1 = .reset ∨
      ∃ blob, (nextMove s).1 = .load blob ∧ blob.length ≤ 3583)

/-- R42, R48, R100: REDRAW_PENDING falls only on `frame_ack`, Reset and a successful Load; `frame_ack` in RUN or WAIT_KEY
clears it and changes nothing else. -/
def Obligations.RedrawPendingIsSticky : Prop :=
  (∀ s u : State, step s = .next u → s.redrawPending = true → u.redrawPending = false →
    (nextMove s).1 = .frameAck ∨ (nextMove s).1 = .reset ∨
      ∃ blob, (nextMove s).1 = .load blob ∧ blob.length ≤ 3583) ∧
  (∀ s : State, (nextMove s).1 = .frameAck → s.status = .run ∨ s.status = .waitKey →
    ∃ u, step s = .next u ∧ u.redrawPending = false ∧ Unchanged [.redrawPending] s.atInstant u ∧ RegsUnchanged [] s u)

/-- R45: the fields of HOST_STATUS by their weights, bits 15 to 12 zero, all 0 after reset; writing to it has no effect.
UNDEF_SEEN rises in a loop step whose opcode is Undefined and only there, and falls only by Reset or a successful Load
("since the last load"). -/
def Obligations.HostStatusPacksItsFields : Prop :=
  (∀ s : State, s.hostStatus.toNat =
    s.status.code.toNat + 4 * s.error.toNat + (if s.redrawPending then 32 else 0) + (if s.st = 0 then 0 else 64) +
      (if s.undefSeen then 128 else 0) + 256 * s.waitReg.toNat) ∧
  State.reset.hostStatus = 0 ∧ (Status.idle.code = 0 ∧ Status.run.code = 1 ∧ Status.waitKey.code = 2 ∧ Status.halted.code = 3) ∧
  (∀ (s : State) (w : Word), (nextMove s).1 = .writeHostStatus w → step s = .next s.atInstant) ∧
  (∀ s u : State, step s = .next u → s.undefSeen = false → u.undefSeen = true →
    Steps s ∧ ∃ op r, Fetches s op ∧ decode op = .error r) ∧
  (∀ (s u : State) (op : Word) (r : Reject), Steps s → Fetches s op → decode op = .error r → step s = .next u →
    u.undefSeen = true) ∧
  (∀ s u : State, step s = .next u → s.undefSeen = true → u.undefSeen = false →
    (nextMove s).1 = .reset ∨ ∃ blob, (nextMove s).1 = .load blob ∧ blob.length ≤ 3583)

/-- Every instant has a next state: no fault and no refusal leaves the machine. This is the model's reading of the spec:
a fatal condition is the entry into HALTED of R222 (DEDUCED, log 10), and an instant without a step holds the state
(DEDUCED, log 11). -/
def Obligations.StepAlwaysAnswersANextState : Prop := ∀ s : State, ∃ u, step s = .next u

/-- Every step keeps the invariant `State.Inv`: canonical memory, PC at most 0x10FE (R24), live return addresses at most
0xFFD (R112), ERROR set exactly in HALTED and only to 3, 5 or 6 (R215, R219, R222). -/
def Obligations.EveryStepKeepsTheInvariant : Prop := ∀ s u : State, s.Inv → step s = .next u → u.Inv

/-- The state after reset meets the invariant. -/
def Obligations.ResetStateMeetsTheInvariant : Prop := State.reset.Inv

/-- No step changes the model's arguments (log 1). -/
def Obligations.NoStepChangesTheArguments : Prop := ∀ s u : State, step s = .next u → u.params = s.params

/-- R222, R96: a step that halts changes STATUS and ERROR and nothing else; ERROR is the code of the fetch's or the
instruction's own condition, PC stays at the instruction, no timer ticks, `step_done` is low. -/
def Obligations.FatalConditionsArePrecise : Prop :=
  ∀ s u : State, Steps s → step s = .next u → u.status = .halted →
    (0xFFE ≤ s.pc.toNat ∧ HaltsWith 6 s.atInstant u) ∨
    ∃ op i, Fetches s op ∧ decode op = .ok i ∧ i.RaisesIn s ∧ HaltsWith i.raiseCode s.atInstant u

/-- R28: stack entries at or above SP are observed by no instruction and by no port of the host. -/
def Obligations.DeadStackEntriesAreUnobservable : Prop :=
  ∀ s s' u u' : State, SameButDeadStack s s' → step s = .next u → step s' = .next u' →
    SameButDeadStack u u' ∧ u.hostStatus = u'.hostStatus ∧ u.snapshot = u'.snapshot

/-! Frames of every instruction -/

/-- An instruction that does not raise leaves every part but its own as it was; one that raises enters HALTED with its
code and leaves everything else as it was (R222). -/
def Obligations.EveryInstructionKeepsItsFrame : Prop :=
  ∀ (i : Instr) (s t : State), exec i s = .next t →
    (¬i.RaisesIn s → Unchanged i.partsWritten s t ∧ RegsUnchanged i.regsWritten s t) ∧
    (i.RaisesIn s → HaltsWith i.raiseCode s t)

/-- R52, R55: an instruction stores at I and up, its own count of bytes, and no other byte of memory changes. -/
def Obligations.StoresStayInsideTheirBytes : Prop :=
  ∀ (i : Instr) (s t : State), exec i s = .next t → MemUnchangedOutside s.i.toNat i.bytesStored s t

/-- R52, R161: an instruction whose bytes at I pass 0xFFE halts with AddressOutOfRange and writes nothing. -/
def Obligations.AccessPastMemoryHalts : Prop :=
  ∀ (i : Instr) (s : State), 0 < i.bytesMoved → 0xFFE < s.i.toNat + i.bytesMoved - 1 →
    ∃ t, exec i s = .next t ∧ HaltsWith 6 s t

/-! Control flow (41_control_flow.md) -/

/-- R113. -/
def Obligations.JumpSetsPcToItsTarget : Prop :=
  ∀ (nnn : Addr) (s : State), ∃ t, exec (.jump nnn) s = .next t ∧ t.pc.toNat = nnn.toNat ∧
    Unchanged [.pc] s t ∧ RegsUnchanged [] s t

/-- R119: the register is always V0. -/
def Obligations.JumpPlusV0AddsV0 : Prop :=
  ∀ (nnn : Addr) (s : State), ∃ t, exec (.jumpPlusV0 nnn) s = .next t ∧ t.pc.toNat = nnn.toNat + (s.reg 0).toNat ∧
    Unchanged [.pc] s t ∧ RegsUnchanged [] s t

/-- R114: Call pushes its own address and jumps; with SP = 16 it halts with StackOverflow (R217). -/
def Obligations.CallPushesItsOwnAddress : Prop :=
  (∀ (nnn : Addr) (s : State), s.sp.val < 16 → ∃ t, exec (.call nnn) s = .next t ∧ t.sp.val = s.sp.val + 1 ∧
    (∀ k : Fin 16, t.stack[k] = if k.val = s.sp.val then s.pc else s.stack[k]) ∧ t.pc.toNat = nnn.toNat ∧
    Unchanged [.pc, .stack] s t ∧ RegsUnchanged [] s t) ∧
  (∀ (nnn : Addr) (s : State), s.sp.val = 16 → ∃ t, exec (.call nnn) s = .next t ∧ HaltsWith 3 s t)

/-- R112: Return pops a and goes on at a + 2; with SP = 0 it halts with StackUnderflow (R218). -/
def Obligations.ReturnGoesPastItsCall : Prop :=
  (∀ (s : State) (k : Fin 16), s.sp.val = k.val + 1 → ∃ t, exec .ret s = .next t ∧ t.sp.val = k.val ∧
    t.pc = s.stack[k] + 2 ∧ (∀ j : Fin 16, j.val < k.val → t.stack[j] = s.stack[j]) ∧ Unchanged [.pc, .stack] s t ∧
    RegsUnchanged [] s t) ∧
  (∀ s : State, s.sp.val = 0 → ∃ t, exec .ret s = .next t ∧ HaltsWith 5 s t)

/-- R120, which the spec derives from R112 and R114: a Call followed at its target by Return leaves SP as it was and PC past the Call. -/
def Obligations.CallThenReturnRoundTrips : Prop :=
  ∀ (nnn : Addr) (s t : State), s.sp.val < 16 → exec (.call nnn) s = .next t →
    ∃ u, exec .ret t = .next u ∧ u.pc = s.pc + 2 ∧ u.sp = s.sp ∧
      (∀ k : Fin 16, k.val < s.sp.val → u.stack[k] = s.stack[k]) ∧ Unchanged [.pc, .stack] s u ∧ RegsUnchanged [] s u

/-- R115 to R118: PC + 4 if the condition holds, PC + 2 otherwise; nothing else changes. -/
def Obligations.RegisterSkipsTestTheirCondition : Prop :=
  ∀ (x y : Reg) (kk : Byte) (s : State),
    (∃ t, exec (.skipIfEqual x kk) s = .next t ∧ (t.pc = if s.reg x = kk then s.pc + 4 else s.pc + 2) ∧
      Unchanged [.pc] s t ∧ RegsUnchanged [] s t) ∧
    (∃ t, exec (.skipIfNotEqual x kk) s = .next t ∧ (t.pc = if s.reg x = kk then s.pc + 2 else s.pc + 4) ∧
      Unchanged [.pc] s t ∧ RegsUnchanged [] s t) ∧
    (∃ t, exec (.skipIfVxEqVy x y) s = .next t ∧ (t.pc = if s.reg x = s.reg y then s.pc + 4 else s.pc + 2) ∧
      Unchanged [.pc] s t ∧ RegsUnchanged [] s t) ∧
    (∃ t, exec (.skipIfVxNeVy x y) s = .next t ∧ (t.pc = if s.reg x = s.reg y then s.pc + 2 else s.pc + 4) ∧
      Unchanged [.pc] s t ∧ RegsUnchanged [] s t)

/-! ALU (42_alu.md) -/

/-- R133, R134: LoadImmediate writes kk; AddImmediate wraps and writes no flag. -/
def Obligations.ImmediatesWriteTheirRegister : Prop :=
  ∀ (x : Reg) (kk : Byte) (s : State),
    (∃ t, exec (.loadImmediate x kk) s = .next t ∧ t.reg x = kk ∧ t.pc = s.pc + 2 ∧ Unchanged [.pc] s t ∧
      RegsUnchanged [x] s t) ∧
    (∃ t, exec (.addImmediate x kk) s = .next t ∧ (t.reg x).toNat = ((s.reg x).toNat + kk.toNat) % 256 ∧
      t.pc = s.pc + 2 ∧ Unchanged [.pc] s t ∧ RegsUnchanged [x] s t)

/-- R135 to R138, bit by bit; VF is not written unless it is x (R132). -/
def Obligations.MoveAndLogicWriteOnlyVx : Prop :=
  ∀ (x y : Reg) (s : State),
    (∃ t, exec (.move x y) s = .next t ∧ t.reg x = s.reg y ∧ t.pc = s.pc + 2 ∧ Unchanged [.pc] s t ∧
      RegsUnchanged [x] s t) ∧
    (∃ t, exec (.or x y) s = .next t ∧
      (∀ k, (t.reg x).getLsbD k = ((s.reg x).getLsbD k || (s.reg y).getLsbD k)) ∧ t.pc = s.pc + 2 ∧
      Unchanged [.pc] s t ∧ RegsUnchanged [x] s t) ∧
    (∃ t, exec (.and x y) s = .next t ∧
      (∀ k, (t.reg x).getLsbD k = ((s.reg x).getLsbD k && (s.reg y).getLsbD k)) ∧ t.pc = s.pc + 2 ∧
      Unchanged [.pc] s t ∧ RegsUnchanged [x] s t) ∧
    (∃ t, exec (.xor x y) s = .next t ∧
      (∀ k, (t.reg x).getLsbD k = ((s.reg x).getLsbD k != (s.reg y).getLsbD k)) ∧ t.pc = s.pc + 2 ∧
      Unchanged [.pc] s t ∧ RegsUnchanged [x] s t)

/-- R139: the sum mod 256 and the carry; with x = F VF ends as the carry (R131). -/
def Obligations.AddWritesSumAndCarry : Prop :=
  ∀ (x y : Reg) (s : State), ∃ t, exec (.add x y) s = .next t ∧
    (x ≠ vf → (t.reg x).toNat = ((s.reg x).toNat + (s.reg y).toNat) % 256) ∧
    t.reg vf = (if 255 < (s.reg x).toNat + (s.reg y).toNat then 1 else 0) ∧ t.pc = s.pc + 2 ∧
    Unchanged [.pc] s t ∧ RegsUnchanged [x, vf] s t

/-- R140, R142: the difference mod 256 and the strict comparison; at the tie VF = 0 by the rules, 1 under the argument
SUB_TIE_VF = 1 of 93 Part 3. -/
def Obligations.SubtractionsWriteDifferenceAndFlag : Prop :=
  ∀ (x y : Reg) (s : State),
    (∃ t, exec (.subXY x y) s = .next t ∧
      (x ≠ vf → ((t.reg x).toNat : Int) = ((s.reg x).toNat - (s.reg y).toNat : Int) % 256) ∧
      (s.params.subTieVf = .zero → t.reg vf = if (s.reg y).toNat < (s.reg x).toNat then 1 else 0) ∧
      (s.params.subTieVf = .one → t.reg vf = if (s.reg y).toNat ≤ (s.reg x).toNat then 1 else 0) ∧
      t.pc = s.pc + 2 ∧ Unchanged [.pc] s t ∧ RegsUnchanged [x, vf] s t) ∧
    (∃ t, exec (.subYX x y) s = .next t ∧
      (x ≠ vf → ((t.reg x).toNat : Int) = ((s.reg y).toNat - (s.reg x).toNat : Int) % 256) ∧
      (s.params.subTieVf = .zero → t.reg vf = if (s.reg x).toNat < (s.reg y).toNat then 1 else 0) ∧
      (s.params.subTieVf = .one → t.reg vf = if (s.reg x).toNat ≤ (s.reg y).toNat then 1 else 0) ∧
      t.pc = s.pc + 2 ∧ Unchanged [.pc] s t ∧ RegsUnchanged [x, vf] s t)

/-- R141: with SHIFT_SRC = VX, the rules' reading, Vx halves and VF is its old bit 0; with x = F and SHIFT_XF = SEQUENTIAL,
the rules' reading, the final VF is 0. The instruction completes under every reading. -/
def Obligations.ShiftRightHalvesVx : Prop :=
  ∀ (x y : Reg) (s : State), ∃ t, exec (.shiftRight x y) s = .next t ∧
    (s.params.shiftSrc = .vx →
      (x ≠ vf → (t.reg x).toNat = (s.reg x).toNat / 2 ∧ (t.reg vf).toNat = (s.reg x).toNat % 2) ∧
      (x = vf → s.params.shiftXf = .sequential → t.reg vf = 0)) ∧
    t.pc = s.pc + 2 ∧ Unchanged [.pc] s t ∧ RegsUnchanged [x, vf] s t

/-- R143: with SHIFT_SRC = VX, the rules' reading, Vx doubles mod 256 and VF is its old bit 7; with x = F and SHIFT_XF =
SEQUENTIAL, the rules' reading, the final VF is 2 if the old VF had bit 7 set, else 0. -/
def Obligations.ShiftLeftDoublesVx : Prop :=
  ∀ (x y : Reg) (s : State), ∃ t, exec (.shiftLeft x y) s = .next t ∧
    (s.params.shiftSrc = .vx →
      (x ≠ vf → (t.reg x).toNat = 2 * (s.reg x).toNat % 256 ∧ (t.reg vf).toNat = (s.reg x).toNat / 128) ∧
      (x = vf → s.params.shiftXf = .sequential → (t.reg vf).toNat = 2 * ((s.reg x).toNat / 128))) ∧
    t.pc = s.pc + 2 ∧ Unchanged [.pc] s t ∧ RegsUnchanged [x, vf] s t

/-- The other readings of 93 Part 3: SHIFT_XF = CAPTURED gives VF the old VF shifted when x = F, and SHIFT_SRC = VY shifts
Vy into Vx (U5), for every x and y. With y = F the two readings combine as the model chooses (log 21): CAPTURED shifts the
old VF, SEQUENTIAL the flag just written to VF. -/
def Obligations.OtherShiftReadingsShiftAsNamed : Prop :=
  (∀ (y : Reg) (s : State), s.params.shiftSrc = .vx → s.params.shiftXf = .captured →
    (∃ t, exec (.shiftRight vf y) s = .next t ∧ (t.reg vf).toNat = (s.reg vf).toNat / 2) ∧
    (∃ t, exec (.shiftLeft vf y) s = .next t ∧ (t.reg vf).toNat = 2 * (s.reg vf).toNat % 256)) ∧
  (∀ (x y : Reg) (s : State), s.params.shiftSrc = .vy →
    (∃ t, exec (.shiftRight x y) s = .next t ∧
      (y ≠ vf ∨ s.params.shiftXf = .captured → (t.reg x).toNat = (s.reg y).toNat / 2) ∧
      (y = vf → s.params.shiftXf = .sequential → t.reg x = 0) ∧
      (x ≠ vf → (t.reg vf).toNat = (s.reg y).toNat % 2)) ∧
    (∃ t, exec (.shiftLeft x y) s = .next t ∧
      (y ≠ vf ∨ s.params.shiftXf = .captured → (t.reg x).toNat = 2 * (s.reg y).toNat % 256) ∧
      (y = vf → s.params.shiftXf = .sequential → (t.reg x).toNat = 2 * ((s.reg y).toNat / 128)) ∧
      (x ≠ vf → (t.reg vf).toNat = (s.reg y).toNat / 128)))

/-- R144: one draw of `rand_byte`, whatever it is, masked with kk. The counter of draws is the model's own (log 7). -/
def Obligations.RandomMasksOneDraw : Prop :=
  ∀ (x : Reg) (kk : Byte) (s : State), ∃ t, exec (.random x kk) s = .next t ∧
    (∀ k, (t.reg x).getLsbD k = ((Config.randByte s.draws).getLsbD k && kk.getLsbD k)) ∧ t.draws = s.draws + 1 ∧
    t.pc = s.pc + 2 ∧ Unchanged [.pc, .draws] s t ∧ RegsUnchanged [x] s t

/-! Index register and memory (43_index_memory.md) -/

/-- R160. -/
def Obligations.SetIZeroExtendsItsAddress : Prop :=
  ∀ (nnn : Addr) (s : State), ∃ t, exec (.setI nnn) s = .next t ∧ t.i.toNat = nnn.toNat ∧ t.pc = s.pc + 2 ∧
    Unchanged [.pc, .i] s t ∧ RegsUnchanged [] s t

/-- R162: I + Vx mod 2^16; VF = 1 on a carry out of 16 bits, otherwise not written (0 under FX1E_VF = CLEAR). -/
def Obligations.AddToIFlagsTheSixteenBitCarry : Prop :=
  ∀ (x : Reg) (s : State), ∃ t, exec (.addToI x) s = .next t ∧
    t.i.toNat = (s.i.toNat + (s.reg x).toNat) % 65536 ∧
    (0xFFFF < s.i.toNat + (s.reg x).toNat → t.reg vf = 1) ∧
    (s.i.toNat + (s.reg x).toNat ≤ 0xFFFF → s.params.fx1eVf = .unchanged → t.reg vf = s.reg vf) ∧
    (s.i.toNat + (s.reg x).toNat ≤ 0xFFFF → s.params.fx1eVf = .clear → t.reg vf = 0) ∧
    t.pc = s.pc + 2 ∧ Unchanged [.pc, .i] s t ∧ RegsUnchanged [vf] s t

/-- R163: I points to the glyph the digit map names, from FONT_BASE (an argument, 0 by default; log 2): the low nibble by
default, Vx unmasked, or any map, whose sum is taken mod 2^16 as every write of a sum to I (R22; log 25). -/
def Obligations.LoadFontAddressPointsToTheGlyph : Prop :=
  ∀ (x : Reg) (s : State), ∃ t, exec (.loadFontAddress x) s = .next t ∧
    (s.params.digitMap = .lowNibble → t.i.toNat = s.params.fontBase.val + 5 * ((s.reg x).toNat % 16)) ∧
    (s.params.digitMap = .unmasked → t.i.toNat = s.params.fontBase.val + 5 * (s.reg x).toNat) ∧
    (s.params.digitMap = .anyMap →
      t.i.toNat = (s.params.fontBase.val + 5 * Config.fx29Digit (s.reg x)) % 65536) ∧
    t.pc = s.pc + 2 ∧ Unchanged [.pc, .i] s t ∧ RegsUnchanged [] s t

/-- R164, R167: the three digits at I, I+1, I+2; they give the byte back. An I past 0xFFC halts. Canonical memory is the
invariant of `EveryStepKeepsTheInvariant`. -/
def Obligations.StoreBcdWritesThreeDigits : Prop :=
  (∀ (x : Reg) (s : State), Memory.wf s.params s.mem → s.i.toNat + 2 ≤ 0xFFE → ∃ t, exec (.storeBCD x) s = .next t ∧
    (t.byte s.i.toNat).toNat = (s.reg x).toNat / 100 ∧
    (t.byte (s.i.toNat + 1)).toNat = (s.reg x).toNat / 10 % 10 ∧
    (t.byte (s.i.toNat + 2)).toNat = (s.reg x).toNat % 10 ∧
    (t.byte s.i.toNat).toNat * 100 + (t.byte (s.i.toNat + 1)).toNat * 10 +
      (t.byte (s.i.toNat + 2)).toNat = (s.reg x).toNat ∧
    MemUnchangedOutside s.i.toNat 3 s t ∧ t.pc = s.pc + 2 ∧ Unchanged [.pc, .mem] s t ∧ RegsUnchanged [] s t) ∧
  (∀ (x : Reg) (s : State), 0xFFE < s.i.toNat + 2 → ∃ t, exec (.storeBCD x) s = .next t ∧ HaltsWith 6 s t)

/-- R165: V0..Vx at I and up, and I += x + 1; past 0xFFE it halts. -/
def Obligations.StoreRegistersWritesV0ToVx : Prop :=
  (∀ (x : Reg) (s : State), Memory.wf s.params s.mem → s.i.toNat + x.toNat ≤ 0xFFE →
    ∃ t, exec (.storeRegisters x) s = .next t ∧
      (∀ r : Reg, r.toNat ≤ x.toNat → t.byte (s.i.toNat + r.toNat) = s.reg r) ∧
      MemUnchangedOutside s.i.toNat (x.toNat + 1) s t ∧ t.i.toNat = s.i.toNat + x.toNat + 1 ∧ t.pc = s.pc + 2 ∧
      Unchanged [.pc, .mem, .i] s t ∧ RegsUnchanged [] s t) ∧
  (∀ (x : Reg) (s : State), 0xFFE < s.i.toNat + x.toNat →
    ∃ t, exec (.storeRegisters x) s = .next t ∧ HaltsWith 6 s t)

/-- R166: V0..Vx from I and up, and I += x + 1; the other registers stay. Past 0xFFE it halts. -/
def Obligations.LoadRegistersReadsV0ToVx : Prop :=
  (∀ (x : Reg) (s : State), s.i.toNat + x.toNat ≤ 0xFFE →
    ∃ t, exec (.loadRegisters x) s = .next t ∧
      (∀ r : Reg, r.toNat ≤ x.toNat → t.reg r = s.byte (s.i.toNat + r.toNat)) ∧
      (∀ r : Reg, x.toNat < r.toNat → t.reg r = s.reg r) ∧ t.i.toNat = s.i.toNat + x.toNat + 1 ∧ t.pc = s.pc + 2 ∧
      Unchanged [.pc, .i] s t) ∧
  (∀ (x : Reg) (s : State), 0xFFE < s.i.toNat + x.toNat →
    ∃ t, exec (.loadRegisters x) s = .next t ∧ HaltsWith 6 s t)

/-- Loading back what Fx55 stored restores V0..Vx, whatever the registers hold in between (R165, R166). -/
def Obligations.StoreThenLoadRestoresRegisters : Prop :=
  ∀ (x : Reg) (s t : State) (v' : Vector Byte 16), Memory.wf s.params s.mem → s.i.toNat + x.toNat ≤ 0xFFE →
    exec (.storeRegisters x) s = .next t →
    ∃ u, exec (.loadRegisters x) { t with i := s.i, v := v' } = .next u ∧
      (∀ r : Reg, r.toNat ≤ x.toNat → u.reg r = s.reg r) ∧ u.i = t.i

/-- R61, R62: a store to the bytes after the storing instruction is what the next fetch reads, of StoreRegisters (with
x = 0 only the high byte is stored) and of StoreBCD. -/
def Obligations.NextFetchSeesTheStore : Prop :=
  (∀ (x : Reg) (s t : State), Memory.wf s.params s.mem → s.i.toNat + max 1 x.toNat ≤ 0xFFE →
    s.i.toNat = s.pc.toNat + 2 → exec (.storeRegisters x) s = .next t →
    fetch t = .ok (opcodeOfBytes (s.reg 0) (if x = 0 then s.byte (s.i.toNat + 1) else s.reg 1))) ∧
  (∀ (x : Reg) (s t : State), Memory.wf s.params s.mem → s.i.toNat + 2 ≤ 0xFFE →
    s.i.toNat = s.pc.toNat + 2 → exec (.storeBCD x) s = .next t →
    ∃ op : Word, fetch t = .ok op ∧ (op.extractLsb' 8 8).toNat = (s.reg x).toNat / 100 ∧
      (op.extractLsb' 0 8).toNat = (s.reg x).toNat / 10 % 10)

/-! Display (44_display_blitter.md) -/

/-- R180: every row is 0 and REDRAW_PENDING is set, VF is not written. -/
def Obligations.ClearScreenClearsEveryRow : Prop :=
  ∀ s : State, ∃ t, exec .clearScreen s = .next t ∧ (∀ r, t.fbRead r = 0) ∧ t.redrawPending = true ∧
    t.pc = s.pc + 2 ∧ Unchanged [.pc, .fb, .redrawPending] s t ∧ RegsUnchanged [] s t

/-- R181 (the bit order is K3, log 4): bit 7 of a sprite byte is leftmost; pixel k is at column (x0 + k) mod 64, column c being bit 63 - c (R35). -/
def Obligations.PlacePutsPixelsInColumns : Prop :=
  ∀ (b : Byte) (x0 c : Nat), x0 < 64 → c < 64 →
    ((place b x0).getLsbD (63 - c) = true ↔ ∃ k, k < 8 ∧ c = (x0 + k) % 64 ∧ b.getLsbD (7 - k) = true)

/-- R183, R182, over `place` (K3, log 4): sprite row k is XORed into row (Vy + k) mod 32, other rows stay, VF is the collision flag, written last;
a sprite past memory halts. -/
def Obligations.DrawXorsItsRowsAndFlagsCollision : Prop :=
  (∀ (x y : Reg) (n : RowCount) (s : State), n = 0 ∨ s.i.toNat + n.toNat - 1 ≤ 0xFFE →
    ∃ t, exec (.draw x y n) s = .next t ∧
      (∀ k, k < n.toNat → t.fbRead (Fin.ofNat 32 ((s.reg y).toNat + k)) =
        s.fbRead (Fin.ofNat 32 ((s.reg y).toNat + k)) ^^^
          place (s.byte (s.i.toNat + k)) ((s.reg x).toNat % 64)) ∧
      (∀ r : Fin 32, (∀ k, k < n.toNat → r ≠ Fin.ofNat 32 ((s.reg y).toNat + k)) → t.fbRead r = s.fbRead r) ∧
      (t.reg vf = 0 ∨ t.reg vf = 1) ∧
      (t.reg vf = 1 ↔ ∃ k, k < n.toNat ∧ s.fbRead (Fin.ofNat 32 ((s.reg y).toNat + k)) &&&
        place (s.byte (s.i.toNat + k)) ((s.reg x).toNat % 64) ≠ 0) ∧
      t.redrawPending = true ∧ t.pc = s.pc + 2 ∧ Unchanged [.pc, .fb, .redrawPending] s t ∧ RegsUnchanged [vf] s t) ∧
  (∀ (x y : Reg) (n : RowCount) (s : State), n ≠ 0 → 0xFFE < s.i.toNat + n.toNat - 1 →
    ∃ t, exec (.draw x y n) s = .next t ∧ HaltsWith 6 s t)

/-- R184, which the spec derives from R183: the second of two equal draws restores the framebuffer, and reports VF = 1 exactly when the first turned a
pixel on (C7). -/
def Obligations.DrawingTwiceRestoresTheFramebuffer : Prop :=
  ∀ (x y : Reg) (n : RowCount) (s t : State), x ≠ vf → y ≠ vf → n = 0 ∨ s.i.toNat + n.toNat - 1 ≤ 0xFFE →
    exec (.draw x y n) s = .next t →
    ∃ u, exec (.draw x y n) t = .next u ∧ u.fb = s.fb ∧
      (u.reg vf = 1 ↔ ∃ (r : Fin 32) (c : Nat), (s.fbRead r).getLsbD c = false ∧ (t.fbRead r).getLsbD c = true)

/-! Timers and keys (45_timers_keys.md) -/

/-- R198 to R200: the timer instructions before their step's tick. -/
def Obligations.TimerInstructionsMoveTheirTimer : Prop :=
  ∀ (x : Reg) (s : State),
    (∃ t, exec (.loadDelayTimer x) s = .next t ∧ t.reg x = s.dt ∧ t.pc = s.pc + 2 ∧ Unchanged [.pc] s t ∧
      RegsUnchanged [x] s t) ∧
    (∃ t, exec (.setDelayTimer x) s = .next t ∧ t.dt = s.reg x ∧ t.pc = s.pc + 2 ∧ Unchanged [.pc, .dt] s t ∧
      RegsUnchanged [] s t) ∧
    (∃ t, exec (.setSoundTimer x) s = .next t ∧ t.st = s.reg x ∧ t.pc = s.pc + 2 ∧ Unchanged [.pc, .st] s t ∧
      RegsUnchanged [] s t)

/-- R198, R199, R200, R246: under PER_STEP a whole step that writes a timer leaves it one lower, and Fx07 reads DT before
its own tick. -/
def Obligations.TimerWriteTicksInItsOwnStep : Prop :=
  ∀ (x : Reg) (s : State) (op : Word), Steps s → Fetches s op → s.params.timerMode = .perStep →
    (decode op = .ok (.setDelayTimer x) → ∃ u, step s = .next u ∧ u.dt.toNat = (s.reg x).toNat - 1) ∧
    (decode op = .ok (.setSoundTimer x) → ∃ u, step s = .next u ∧ u.st.toNat = (s.reg x).toNat - 1 ∧
      u.soundActive = decide (1 < (s.reg x).toNat)) ∧
    (decode op = .ok (.loadDelayTimer x) → ∃ u, step s = .next u ∧ u.reg x = s.dt ∧ u.dt.toNat = s.dt.toNat - 1)

/-- R201 to R203: key Vx is held iff Vx < 16 and its bit of keys_down is 1 (under KEY_INDEX_MAP = LOW_NIBBLE, the bit of
the low nibble); Ex9E skips if it is, ExA1 if it is not. -/
def Obligations.KeySkipsSampleKeysDown : Prop :=
  ∀ (x : Reg) (s : State),
    (s.params.keyIndexMap = .notPressed →
      (s.keyPressed (s.reg x) = true ↔ (s.reg x).toNat < 16 ∧ s.keysDown.toNat / 2 ^ (s.reg x).toNat % 2 = 1)) ∧
    (s.params.keyIndexMap = .lowNibble →
      (s.keyPressed (s.reg x) = true ↔ s.keysDown.toNat / 2 ^ ((s.reg x).toNat % 16) % 2 = 1)) ∧
    (∃ t, exec (.skipIfKeyDown x) s = .next t ∧ (t.pc = if s.keyPressed (s.reg x) then s.pc + 4 else s.pc + 2) ∧
      Unchanged [.pc] s t ∧ RegsUnchanged [] s t) ∧
    (∃ t, exec (.skipIfKeyUp x) s = .next t ∧ (t.pc = if s.keyPressed (s.reg x) then s.pc + 2 else s.pc + 4) ∧
      Unchanged [.pc] s t ∧ RegsUnchanged [] s t)

/-- R204: WaitKey enters WAIT_KEY with WAIT_REG = x, PC unchanged; its step does not tick. -/
def Obligations.WaitKeyEntersTheWait : Prop :=
  (∀ (x : Reg) (s : State), ∃ t, exec (.waitKey x) s = .next t ∧ t.status = .waitKey ∧ t.waitReg = x ∧
    Unchanged [.status, .waitReg] s t ∧ RegsUnchanged [] s t) ∧
  (∀ (x : Reg) (s : State) (op : Word), Steps s → Fetches s op → decode op = .ok (.waitKey x) →
    ∃ u, step s = .next u ∧ u.status = .waitKey ∧ u.waitReg = x ∧ u.stepDone = true ∧
      Unchanged [.status, .waitReg, .stepDone] s.atInstant u ∧ RegsUnchanged [] s u)

/-- R41, R27, R29, R34, R22: WAIT_REG, the stack (SP and its entries), the timers, the framebuffer and I are written by
their own instructions only. That Return leaves the popped entry in place is the model's choice (log 9). -/
def Obligations.OwnedStateIsWrittenByItsOwners : Prop :=
  ∀ (i : Instr) (s t : State), exec i s = .next t →
    (t.waitReg ≠ s.waitReg → ∃ x, i = .waitKey x) ∧
    (t.sp ≠ s.sp → i = .ret ∨ ∃ nnn, i = .call nnn) ∧
    (t.stack ≠ s.stack → ∃ nnn, i = .call nnn) ∧
    (t.dt ≠ s.dt → ∃ x, i = .setDelayTimer x) ∧
    (t.st ≠ s.st → ∃ x, i = .setSoundTimer x) ∧
    (t.fb ≠ s.fb → i = .clearScreen ∨ ∃ x y n, i = .draw x y n) ∧
    (t.i ≠ s.i → (∃ nnn, i = .setI nnn) ∨ (∃ x, i = .addToI x) ∨ (∃ x, i = .loadFontAddress x) ∨
      (∃ x, i = .storeRegisters x) ∨ ∃ x, i = .loadRegisters x)
end

