-- ==== Sys2Proof/Laws/Decode.lean ====
section
/-! SUPPORT. The fields and the fixed bits of each encoding format (30_encoding.md R71, R72), and the bytes of an opcode. -/

namespace Sys2Proof

@[simp] theorem fieldT_encodeA (t : BitVec 4) (nnn : Addr) :
    fieldT (encodeA t nnn) = t := by
  apply BitVec.eq_of_getLsbD_eq; intro i hi
  interval_cases i <;> simp [fieldT, encodeA]

@[simp] theorem fieldNNN_encodeA (t : BitVec 4) (nnn : Addr) :
    fieldNNN (encodeA t nnn) = nnn := by
  apply BitVec.eq_of_getLsbD_eq; intro i hi
  interval_cases i <;> simp [fieldNNN, encodeA]

@[simp] theorem fieldT_encodeXK (t : BitVec 4) (x : Reg) (kk : Byte) :
    fieldT (encodeXK t x kk) = t := by
  apply BitVec.eq_of_getLsbD_eq; intro i hi
  interval_cases i <;> simp [fieldT, encodeXK]

@[simp] theorem fieldX_encodeXK (t : BitVec 4) (x : Reg) (kk : Byte) :
    fieldX (encodeXK t x kk) = x := by
  apply BitVec.eq_of_getLsbD_eq; intro i hi
  interval_cases i <;> simp [fieldX, encodeXK]

@[simp] theorem fieldKK_encodeXK (t : BitVec 4) (x : Reg) (kk : Byte) :
    fieldKK (encodeXK t x kk) = kk := by
  apply BitVec.eq_of_getLsbD_eq; intro i hi
  interval_cases i <;> simp [fieldKK, encodeXK]

@[simp] theorem fieldT_encodeXYN (t : BitVec 4) (x y : Reg) (n : BitVec 4) :
    fieldT (encodeXYN t x y n) = t := by
  apply BitVec.eq_of_getLsbD_eq; intro i hi
  interval_cases i <;> simp [fieldT, encodeXYN]

@[simp] theorem fieldX_encodeXYN (t : BitVec 4) (x y : Reg) (n : BitVec 4) :
    fieldX (encodeXYN t x y n) = x := by
  apply BitVec.eq_of_getLsbD_eq; intro i hi
  interval_cases i <;> simp [fieldX, encodeXYN]

@[simp] theorem fieldY_encodeXYN (t : BitVec 4) (x y : Reg) (n : BitVec 4) :
    fieldY (encodeXYN t x y n) = y := by
  apply BitVec.eq_of_getLsbD_eq; intro i hi
  interval_cases i <;> simp [fieldY, encodeXYN]

@[simp] theorem fieldN_encodeXYN (t : BitVec 4) (x y : Reg) (n : BitVec 4) :
    fieldN (encodeXYN t x y n) = n := by
  apply BitVec.eq_of_getLsbD_eq; intro i hi
  interval_cases i <;> simp [fieldN, encodeXYN]

theorem encodeA_and_mask (t : BitVec 4) (nnn : Addr) :
    encodeA t nnn &&& 0xF000#16 = t.setWidth 16 <<< 12 := by
  apply BitVec.eq_of_getLsbD_eq; intro i hi
  interval_cases i <;> simp [encodeA]

theorem encodeXK_and_mask (t : BitVec 4) (x : Reg) (kk : Byte) :
    encodeXK t x kk &&& 0xF000#16 = t.setWidth 16 <<< 12 := by
  apply BitVec.eq_of_getLsbD_eq; intro i hi
  interval_cases i <;> simp [encodeXK]

theorem encodeX_and_mask (t : BitVec 4) (x : Reg) (kk : Byte) :
    encodeXK t x kk &&& 0xF0FF#16 = t.setWidth 16 <<< 12 ||| kk.setWidth 16 := by
  apply BitVec.eq_of_getLsbD_eq; intro i hi
  interval_cases i <;> simp [encodeXK]

theorem encodeXY_and_mask (t : BitVec 4) (x y : Reg) (n : BitVec 4) :
    encodeXYN t x y n &&& 0xF00F#16 = t.setWidth 16 <<< 12 ||| n.setWidth 16 := by
  apply BitVec.eq_of_getLsbD_eq; intro i hi
  interval_cases i <;> simp [encodeXYN]

theorem encodeXYN_and_mask (t : BitVec 4) (x y : Reg) (n : BitVec 4) :
    encodeXYN t x y n &&& 0xF000#16 = t.setWidth 16 <<< 12 := by
  apply BitVec.eq_of_getLsbD_eq; intro i hi
  interval_cases i <;> simp [encodeXYN]

@[simp] theorem opcodeOfBytes_high (hi lo : Byte) :
    (opcodeOfBytes hi lo).extractLsb' 8 8 = hi := by
  apply BitVec.eq_of_getLsbD_eq; intro i h
  interval_cases i <;> simp [opcodeOfBytes]

@[simp] theorem opcodeOfBytes_low (hi lo : Byte) :
    (opcodeOfBytes hi lo).extractLsb' 0 8 = lo := by
  apply BitVec.eq_of_getLsbD_eq; intro i h
  interval_cases i <;> simp [opcodeOfBytes]

@[simp] theorem opcodeOfBytes_bytes (op : Word) :
    opcodeOfBytes (op.extractLsb' 8 8) (op.extractLsb' 0 8) = op := by
  apply BitVec.eq_of_getLsbD_eq; intro i hi
  interval_cases i <;> simp [opcodeOfBytes]

/-- Decoding the bytes of an opcode decodes the opcode, and takes exactly those two bytes (R70). -/
theorem decodeBytes_bytesOfOpcode (op : Word) (rest : List Byte) :
    decodeBytes (bytesOfOpcode op ++ rest) = (decode op).map (fun i => (i, rest)) := by
  simp only [bytesOfOpcode, List.cons_append, List.nil_append, decodeBytes, opcodeOfBytes_bytes]

end Sys2Proof
end

