-- ==== Sys2Proof/Laws/Memory.lean ====
section
/-! SUPPORT. The laws of memory: read after write, a write leaves every other byte alone, and every operation keeps the
canonical form (20_memory.md R56, R59). -/

namespace Sys2Proof.Machine

variable {ps : Params}

theorem Memory.read_entry_append (m : Memory) (a : Nat) (b : Byte) (h : Memory.read ps m a = Memory.initial ps a) :
    Memory.read ps (Memory.entry ps a b ++ m) a = b := by
  unfold Memory.entry
  split
  · next hb => simp [h, hb]
  · simp [Memory.read]

theorem Memory.read_entry_append_other (m : Memory) {a c : Nat} (b : Byte) (h : c ≠ a) :
    Memory.read ps (Memory.entry ps a b ++ m) c = Memory.read ps m c := by
  unfold Memory.entry
  split <;> simp [Memory.read, h]

/-- An address below every listed one reads as unlisted. -/
theorem Memory.read_of_lt (m : Memory) (a : Nat) (h : ∀ p ∈ m, a < p.1) : Memory.read ps m a = Memory.initial ps a := by
  induction m with
  | nil => rfl
  | cons p rest ih =>
    have hp := h p (by simp)
    simp only [Memory.read, Nat.ne_of_lt hp, if_false]
    exact ih fun q hq => h q (by simp [hq])

/-- Read after write, same byte, for memory in rising order. -/
theorem Memory.read_put_self (m : Memory) (a : Nat) (b : Byte)
    (h : List.Pairwise (fun p q : Host.Cell => p.1 < q.1) m) : Memory.read ps (Memory.put ps m a b) a = b := by
  induction m with
  | nil => simpa [Memory.put] using Memory.read_entry_append [] a b rfl
  | cons p rest ih =>
    obtain ⟨c, d⟩ := p
    rw [List.pairwise_cons] at h
    simp only [Memory.put]
    split
    · next hlt =>
      refine Memory.read_entry_append _ a b (Memory.read_of_lt _ a ?_)
      intro q hq
      rcases List.mem_cons.1 hq with rfl | hq
      · exact hlt
      · exact Nat.lt_trans hlt (h.1 q hq)
    · split
      · next hac =>
        subst hac
        exact Memory.read_entry_append _ a b (Memory.read_of_lt _ a h.1)
      · next hac => simpa [Memory.read, hac] using ih h.2

/-- A write of one byte leaves every other byte alone (R56). -/
theorem Memory.read_put_other (m : Memory) {a c : Nat} (b : Byte) (hc : c ≠ a) :
    Memory.read ps (Memory.put ps m a b) c = Memory.read ps m c := by
  induction m with
  | nil => simpa [Memory.put] using Memory.read_entry_append_other [] b hc
  | cons p rest ih =>
    obtain ⟨x, d⟩ := p
    simp only [Memory.put]
    split
    · exact Memory.read_entry_append_other _ b hc
    · split
      · next hax => subst hax; simp [Memory.read_entry_append_other _ b hc, Memory.read, hc]
      · simp only [Memory.read, ih]

theorem Memory.mem_put {m : Memory} {a : Nat} {b : Byte} {q : Host.Cell} (hq : q ∈ Memory.put ps m a b) :
    q ∈ m ∨ (q = (a, b) ∧ b ≠ Memory.initial ps a) := by
  have entry_cases : ∀ r : Host.Cell, r ∈ Memory.entry ps a b → r = (a, b) ∧ b ≠ Memory.initial ps a := by
    intro r hr
    unfold Memory.entry at hr
    split at hr
    · simp at hr
    · next hb => exact ⟨by simpa using hr, hb⟩
  induction m with
  | nil => exact .inr (entry_cases q (by simpa [Memory.put] using hq))
  | cons p rest ih =>
    obtain ⟨c, d⟩ := p
    simp only [Memory.put] at hq
    split at hq
    · rcases List.mem_append.1 hq with h | h
      · exact .inr (entry_cases q h)
      · exact .inl h
    · split at hq
      · rcases List.mem_append.1 hq with h | h
        · exact .inr (entry_cases q h)
        · exact .inl (List.mem_cons_of_mem _ h)
      · rcases List.mem_cons.1 hq with h | h
        · exact .inl (by simp [h])
        · rcases ih h with h | h
          · exact .inl (List.mem_cons_of_mem _ h)
          · exact .inr h

theorem Memory.put_pairwise (m : Memory) (a : Nat) (b : Byte)
    (h : List.Pairwise (fun p q : Host.Cell => p.1 < q.1) m) :
    List.Pairwise (fun p q : Host.Cell => p.1 < q.1) (Memory.put ps m a b) := by
  have before : ∀ l : Memory, List.Pairwise (fun p q : Host.Cell => p.1 < q.1) l → (∀ q ∈ l, a < q.1) →
      List.Pairwise (fun p q : Host.Cell => p.1 < q.1) (Memory.entry ps a b ++ l) := by
    intro l hl hlt
    unfold Memory.entry
    split
    · simpa using hl
    · simpa using ⟨fun x y hxy => hlt (x, y) hxy, hl⟩
  induction m with
  | nil => simpa [Memory.put] using before [] (by simp) (by simp)
  | cons p rest ih =>
    obtain ⟨c, d⟩ := p
    have hp := List.pairwise_cons.1 h
    simp only [Memory.put]
    split
    · next hlt =>
      refine before _ h fun q hq => ?_
      rcases List.mem_cons.1 hq with rfl | hq
      · exact hlt
      · exact Nat.lt_trans hlt (hp.1 q hq)
    · split
      · next hac => subst hac; exact before _ hp.2 hp.1
      · next hlt hac =>
        refine List.pairwise_cons.2 ⟨fun q hq => ?_, ih hp.2⟩
        rcases Memory.mem_put hq with hq | ⟨rfl, -⟩
        · exact hp.1 q hq
        · show c < a; omega

/-- Writing one byte keeps the canonical form. -/
theorem Memory.write_wf {m : Memory} (h : Memory.wf ps m) (a : Nat) (b : Byte) : Memory.wf ps (Memory.write ps m a b) := by
  unfold Memory.write
  split
  · next ha =>
    refine ⟨Memory.put_pairwise m a b h.1, fun p hp => ?_⟩
    rcases Memory.mem_put hp with hp | ⟨rfl, hb⟩
    · exact h.2 p hp
    · exact ⟨ha, hb⟩
  · exact h

/-- Writing bytes keeps the canonical form. -/
theorem Memory.writeBytes_wf {m : Memory} (h : Memory.wf ps m) (a : Nat) (bytes : List Byte) :
    Memory.wf ps (Memory.writeBytes ps m a bytes) := by
  induction bytes generalizing m a with
  | nil => exact h
  | cons b rest ih => exact ih (Memory.write_wf h a b) (a + 1)

/-- The memory at reset lists nothing, which is canonical. -/
theorem Memory.nil_wf : Memory.wf ps [] := ⟨List.Pairwise.nil, by simp⟩

theorem Memory.read_write_self {m : Memory} (h : Memory.wf ps m) {a : Nat} (ha : a ≤ memMax) (b : Byte) :
    Memory.read ps (Memory.write ps m a b) a = b := by
  simp only [Memory.write, ha, if_true]
  exact Memory.read_put_self m a b h.1

theorem Memory.read_write_other (m : Memory) {a c : Nat} (b : Byte) (hc : c ≠ a) :
    Memory.read ps (Memory.write ps m a b) c = Memory.read ps m c := by
  unfold Memory.write
  split
  · exact Memory.read_put_other m b hc
  · rfl

/-- Bytes outside the written range are left alone. -/
theorem Memory.read_writeBytes_outside (m : Memory) (a : Nat) (bytes : List Byte) (c : Nat)
    (hc : c < a ∨ a + bytes.length ≤ c) : Memory.read ps (Memory.writeBytes ps m a bytes) c = Memory.read ps m c := by
  induction bytes generalizing m a with
  | nil => rfl
  | cons b rest ih =>
    simp only [List.length_cons] at hc
    rw [Memory.writeBytes, ih _ _ (by omega), Memory.read_write_other m b (by omega)]

/-- A byte of the written range reads as the byte written. -/
theorem Memory.read_writeBytes_inside {m : Memory} (h : Memory.wf ps m) (a : Nat) (bytes : List Byte) (k : Nat)
    (hk : k < bytes.length) (ha : a + bytes.length ≤ memMax + 1) :
    Memory.read ps (Memory.writeBytes ps m a bytes) (a + k) = bytes[k] := by
  induction bytes generalizing m a k with
  | nil => simp at hk
  | cons b rest ih =>
    simp only [List.length_cons] at hk ha
    rw [Memory.writeBytes]
    cases k with
    | zero =>
      rw [Memory.read_writeBytes_outside _ _ _ _ (by omega), Nat.add_zero,
        Memory.read_write_self h (by omega)]
      rfl
    | succ j =>
      have := ih (Memory.write_wf h a b) (a + 1) j (by omega) (by omega)
      rw [show a + (j + 1) = a + 1 + j by omega, this]
      rfl

@[simp] theorem Memory.readBytes_length (m : Memory) (a n : Nat) : (Memory.readBytes ps m a n).length = n := by
  induction n generalizing a with
  | zero => rfl
  | succ n ih => simp [Memory.readBytes, ih]

theorem Memory.readBytes_getElem (m : Memory) (a n k : Nat) (hk : k < n) :
    (Memory.readBytes ps m a n)[k]'(by simpa using hk) = Memory.read ps m (a + k) := by
  induction n generalizing a k with
  | zero => omega
  | succ n ih =>
    cases k with
    | zero => rfl
    | succ j =>
      simp only [Memory.readBytes, List.getElem_cons_succ]
      rw [ih (a + 1) j (by omega)]
      congr 1
      omega

end Sys2Proof.Machine
end

