-- ==== Sys2Proof/Laws/State.lean ====
section
/-! SUPPORT. Every field after every update of the state, so that no later proof unfolds a record update. -/

namespace Sys2Proof.Machine

variable (s : State)

/-! The bytes of memory as a state reads them -/

@[simp] theorem State.byte_eq (a : Nat) : s.byte a = Memory.read s.params s.mem a := rfl
@[simp] theorem State.bytes_eq (a count : Nat) : s.bytes a count = Memory.readBytes s.params s.mem a count := rfl

/-! setReg -/

@[simp] theorem State.setReg_v (x : Reg) (b : Byte) : (s.setReg x b).v = s.v.set x.toNat b x.isLt := rfl
@[simp] theorem State.setReg_i (x : Reg) (b : Byte) : (s.setReg x b).i = s.i := rfl
@[simp] theorem State.setReg_pc (x : Reg) (b : Byte) : (s.setReg x b).pc = s.pc := rfl
@[simp] theorem State.setReg_sp (x : Reg) (b : Byte) : (s.setReg x b).sp = s.sp := rfl
@[simp] theorem State.setReg_stack (x : Reg) (b : Byte) : (s.setReg x b).stack = s.stack := rfl
@[simp] theorem State.setReg_dt (x : Reg) (b : Byte) : (s.setReg x b).dt = s.dt := rfl
@[simp] theorem State.setReg_st (x : Reg) (b : Byte) : (s.setReg x b).st = s.st := rfl
@[simp] theorem State.setReg_mem (x : Reg) (b : Byte) : (s.setReg x b).mem = s.mem := rfl
@[simp] theorem State.setReg_fb (x : Reg) (b : Byte) : (s.setReg x b).fb = s.fb := rfl
@[simp] theorem State.setReg_status (x : Reg) (b : Byte) : (s.setReg x b).status = s.status := rfl
@[simp] theorem State.setReg_waitReg (x : Reg) (b : Byte) : (s.setReg x b).waitReg = s.waitReg := rfl
@[simp] theorem State.setReg_redrawPending (x : Reg) (b : Byte) : (s.setReg x b).redrawPending = s.redrawPending := rfl
@[simp] theorem State.setReg_error (x : Reg) (b : Byte) : (s.setReg x b).error = s.error := rfl
@[simp] theorem State.setReg_undefSeen (x : Reg) (b : Byte) : (s.setReg x b).undefSeen = s.undefSeen := rfl
@[simp] theorem State.setReg_loadError (x : Reg) (b : Byte) : (s.setReg x b).loadError = s.loadError := rfl
@[simp] theorem State.setReg_diag (x : Reg) (b : Byte) : (s.setReg x b).diag = s.diag := rfl
@[simp] theorem State.setReg_stepDone (x : Reg) (b : Byte) : (s.setReg x b).stepDone = s.stepDone := rfl
@[simp] theorem State.setReg_runEnable (x : Reg) (b : Byte) : (s.setReg x b).runEnable = s.runEnable := rfl
@[simp] theorem State.setReg_keysDown (x : Reg) (b : Byte) : (s.setReg x b).keysDown = s.keysDown := rfl
@[simp] theorem State.setReg_script (x : Reg) (b : Byte) : (s.setReg x b).script = s.script := rfl
@[simp] theorem State.setReg_draws (x : Reg) (b : Byte) : (s.setReg x b).draws = s.draws := rfl
@[simp] theorem State.setReg_params (x : Reg) (b : Byte) : (s.setReg x b).params = s.params := rfl

/-! setI -/

@[simp] theorem State.setI_v (w : Word) : (s.setI w).v = s.v := rfl
@[simp] theorem State.setI_i (w : Word) : (s.setI w).i = w := rfl
@[simp] theorem State.setI_pc (w : Word) : (s.setI w).pc = s.pc := rfl
@[simp] theorem State.setI_sp (w : Word) : (s.setI w).sp = s.sp := rfl
@[simp] theorem State.setI_stack (w : Word) : (s.setI w).stack = s.stack := rfl
@[simp] theorem State.setI_dt (w : Word) : (s.setI w).dt = s.dt := rfl
@[simp] theorem State.setI_st (w : Word) : (s.setI w).st = s.st := rfl
@[simp] theorem State.setI_mem (w : Word) : (s.setI w).mem = s.mem := rfl
@[simp] theorem State.setI_fb (w : Word) : (s.setI w).fb = s.fb := rfl
@[simp] theorem State.setI_status (w : Word) : (s.setI w).status = s.status := rfl
@[simp] theorem State.setI_waitReg (w : Word) : (s.setI w).waitReg = s.waitReg := rfl
@[simp] theorem State.setI_redrawPending (w : Word) : (s.setI w).redrawPending = s.redrawPending := rfl
@[simp] theorem State.setI_error (w : Word) : (s.setI w).error = s.error := rfl
@[simp] theorem State.setI_undefSeen (w : Word) : (s.setI w).undefSeen = s.undefSeen := rfl
@[simp] theorem State.setI_loadError (w : Word) : (s.setI w).loadError = s.loadError := rfl
@[simp] theorem State.setI_diag (w : Word) : (s.setI w).diag = s.diag := rfl
@[simp] theorem State.setI_stepDone (w : Word) : (s.setI w).stepDone = s.stepDone := rfl
@[simp] theorem State.setI_runEnable (w : Word) : (s.setI w).runEnable = s.runEnable := rfl
@[simp] theorem State.setI_keysDown (w : Word) : (s.setI w).keysDown = s.keysDown := rfl
@[simp] theorem State.setI_script (w : Word) : (s.setI w).script = s.script := rfl
@[simp] theorem State.setI_draws (w : Word) : (s.setI w).draws = s.draws := rfl
@[simp] theorem State.setI_params (w : Word) : (s.setI w).params = s.params := rfl

/-! storeAtI -/

@[simp] theorem State.storeAtI_v (bytes : List Byte) : (s.storeAtI bytes).v = s.v := rfl
@[simp] theorem State.storeAtI_i (bytes : List Byte) : (s.storeAtI bytes).i = s.i := rfl
@[simp] theorem State.storeAtI_pc (bytes : List Byte) : (s.storeAtI bytes).pc = s.pc := rfl
@[simp] theorem State.storeAtI_sp (bytes : List Byte) : (s.storeAtI bytes).sp = s.sp := rfl
@[simp] theorem State.storeAtI_stack (bytes : List Byte) : (s.storeAtI bytes).stack = s.stack := rfl
@[simp] theorem State.storeAtI_dt (bytes : List Byte) : (s.storeAtI bytes).dt = s.dt := rfl
@[simp] theorem State.storeAtI_st (bytes : List Byte) : (s.storeAtI bytes).st = s.st := rfl
@[simp] theorem State.storeAtI_mem (bytes : List Byte) : (s.storeAtI bytes).mem = Memory.writeBytes s.params s.mem s.i.toNat bytes := rfl
@[simp] theorem State.storeAtI_fb (bytes : List Byte) : (s.storeAtI bytes).fb = s.fb := rfl
@[simp] theorem State.storeAtI_status (bytes : List Byte) : (s.storeAtI bytes).status = s.status := rfl
@[simp] theorem State.storeAtI_waitReg (bytes : List Byte) : (s.storeAtI bytes).waitReg = s.waitReg := rfl
@[simp] theorem State.storeAtI_redrawPending (bytes : List Byte) : (s.storeAtI bytes).redrawPending = s.redrawPending := rfl
@[simp] theorem State.storeAtI_error (bytes : List Byte) : (s.storeAtI bytes).error = s.error := rfl
@[simp] theorem State.storeAtI_undefSeen (bytes : List Byte) : (s.storeAtI bytes).undefSeen = s.undefSeen := rfl
@[simp] theorem State.storeAtI_loadError (bytes : List Byte) : (s.storeAtI bytes).loadError = s.loadError := rfl
@[simp] theorem State.storeAtI_diag (bytes : List Byte) : (s.storeAtI bytes).diag = s.diag := rfl
@[simp] theorem State.storeAtI_stepDone (bytes : List Byte) : (s.storeAtI bytes).stepDone = s.stepDone := rfl
@[simp] theorem State.storeAtI_runEnable (bytes : List Byte) : (s.storeAtI bytes).runEnable = s.runEnable := rfl
@[simp] theorem State.storeAtI_keysDown (bytes : List Byte) : (s.storeAtI bytes).keysDown = s.keysDown := rfl
@[simp] theorem State.storeAtI_script (bytes : List Byte) : (s.storeAtI bytes).script = s.script := rfl
@[simp] theorem State.storeAtI_draws (bytes : List Byte) : (s.storeAtI bytes).draws = s.draws := rfl
@[simp] theorem State.storeAtI_params (bytes : List Byte) : (s.storeAtI bytes).params = s.params := rfl

/-! loadRegsUpTo -/

@[simp] theorem State.loadRegsUpTo_v (x : Reg) : (s.loadRegsUpTo x).v = setRegsFrom s.v 0 (s.bytes s.i.toNat (x.toNat + 1)) := rfl
@[simp] theorem State.loadRegsUpTo_i (x : Reg) : (s.loadRegsUpTo x).i = s.i := rfl
@[simp] theorem State.loadRegsUpTo_pc (x : Reg) : (s.loadRegsUpTo x).pc = s.pc := rfl
@[simp] theorem State.loadRegsUpTo_sp (x : Reg) : (s.loadRegsUpTo x).sp = s.sp := rfl
@[simp] theorem State.loadRegsUpTo_stack (x : Reg) : (s.loadRegsUpTo x).stack = s.stack := rfl
@[simp] theorem State.loadRegsUpTo_dt (x : Reg) : (s.loadRegsUpTo x).dt = s.dt := rfl
@[simp] theorem State.loadRegsUpTo_st (x : Reg) : (s.loadRegsUpTo x).st = s.st := rfl
@[simp] theorem State.loadRegsUpTo_mem (x : Reg) : (s.loadRegsUpTo x).mem = s.mem := rfl
@[simp] theorem State.loadRegsUpTo_fb (x : Reg) : (s.loadRegsUpTo x).fb = s.fb := rfl
@[simp] theorem State.loadRegsUpTo_status (x : Reg) : (s.loadRegsUpTo x).status = s.status := rfl
@[simp] theorem State.loadRegsUpTo_waitReg (x : Reg) : (s.loadRegsUpTo x).waitReg = s.waitReg := rfl
@[simp] theorem State.loadRegsUpTo_redrawPending (x : Reg) : (s.loadRegsUpTo x).redrawPending = s.redrawPending := rfl
@[simp] theorem State.loadRegsUpTo_error (x : Reg) : (s.loadRegsUpTo x).error = s.error := rfl
@[simp] theorem State.loadRegsUpTo_undefSeen (x : Reg) : (s.loadRegsUpTo x).undefSeen = s.undefSeen := rfl
@[simp] theorem State.loadRegsUpTo_loadError (x : Reg) : (s.loadRegsUpTo x).loadError = s.loadError := rfl
@[simp] theorem State.loadRegsUpTo_diag (x : Reg) : (s.loadRegsUpTo x).diag = s.diag := rfl
@[simp] theorem State.loadRegsUpTo_stepDone (x : Reg) : (s.loadRegsUpTo x).stepDone = s.stepDone := rfl
@[simp] theorem State.loadRegsUpTo_runEnable (x : Reg) : (s.loadRegsUpTo x).runEnable = s.runEnable := rfl
@[simp] theorem State.loadRegsUpTo_keysDown (x : Reg) : (s.loadRegsUpTo x).keysDown = s.keysDown := rfl
@[simp] theorem State.loadRegsUpTo_script (x : Reg) : (s.loadRegsUpTo x).script = s.script := rfl
@[simp] theorem State.loadRegsUpTo_draws (x : Reg) : (s.loadRegsUpTo x).draws = s.draws := rfl
@[simp] theorem State.loadRegsUpTo_params (x : Reg) : (s.loadRegsUpTo x).params = s.params := rfl

/-! bumpI -/

@[simp] theorem State.bumpI_v (x : Reg) : (s.bumpI x).v = s.v := rfl
@[simp] theorem State.bumpI_i (x : Reg) : (s.bumpI x).i = s.i + BitVec.ofNat 16 (x.toNat + 1) := rfl
@[simp] theorem State.bumpI_pc (x : Reg) : (s.bumpI x).pc = s.pc := rfl
@[simp] theorem State.bumpI_sp (x : Reg) : (s.bumpI x).sp = s.sp := rfl
@[simp] theorem State.bumpI_stack (x : Reg) : (s.bumpI x).stack = s.stack := rfl
@[simp] theorem State.bumpI_dt (x : Reg) : (s.bumpI x).dt = s.dt := rfl
@[simp] theorem State.bumpI_st (x : Reg) : (s.bumpI x).st = s.st := rfl
@[simp] theorem State.bumpI_mem (x : Reg) : (s.bumpI x).mem = s.mem := rfl
@[simp] theorem State.bumpI_fb (x : Reg) : (s.bumpI x).fb = s.fb := rfl
@[simp] theorem State.bumpI_status (x : Reg) : (s.bumpI x).status = s.status := rfl
@[simp] theorem State.bumpI_waitReg (x : Reg) : (s.bumpI x).waitReg = s.waitReg := rfl
@[simp] theorem State.bumpI_redrawPending (x : Reg) : (s.bumpI x).redrawPending = s.redrawPending := rfl
@[simp] theorem State.bumpI_error (x : Reg) : (s.bumpI x).error = s.error := rfl
@[simp] theorem State.bumpI_undefSeen (x : Reg) : (s.bumpI x).undefSeen = s.undefSeen := rfl
@[simp] theorem State.bumpI_loadError (x : Reg) : (s.bumpI x).loadError = s.loadError := rfl
@[simp] theorem State.bumpI_diag (x : Reg) : (s.bumpI x).diag = s.diag := rfl
@[simp] theorem State.bumpI_stepDone (x : Reg) : (s.bumpI x).stepDone = s.stepDone := rfl
@[simp] theorem State.bumpI_runEnable (x : Reg) : (s.bumpI x).runEnable = s.runEnable := rfl
@[simp] theorem State.bumpI_keysDown (x : Reg) : (s.bumpI x).keysDown = s.keysDown := rfl
@[simp] theorem State.bumpI_script (x : Reg) : (s.bumpI x).script = s.script := rfl
@[simp] theorem State.bumpI_draws (x : Reg) : (s.bumpI x).draws = s.draws := rfl
@[simp] theorem State.bumpI_params (x : Reg) : (s.bumpI x).params = s.params := rfl

/-! advance_next -/

@[simp] theorem State.advance_next_v : (s.advance .next).v = s.v := rfl
@[simp] theorem State.advance_next_i : (s.advance .next).i = s.i := rfl
@[simp] theorem State.advance_next_pc : (s.advance .next).pc = s.pc + 2 := rfl
@[simp] theorem State.advance_next_sp : (s.advance .next).sp = s.sp := rfl
@[simp] theorem State.advance_next_stack : (s.advance .next).stack = s.stack := rfl
@[simp] theorem State.advance_next_dt : (s.advance .next).dt = s.dt := rfl
@[simp] theorem State.advance_next_st : (s.advance .next).st = s.st := rfl
@[simp] theorem State.advance_next_mem : (s.advance .next).mem = s.mem := rfl
@[simp] theorem State.advance_next_fb : (s.advance .next).fb = s.fb := rfl
@[simp] theorem State.advance_next_status : (s.advance .next).status = s.status := rfl
@[simp] theorem State.advance_next_waitReg : (s.advance .next).waitReg = s.waitReg := rfl
@[simp] theorem State.advance_next_redrawPending : (s.advance .next).redrawPending = s.redrawPending := rfl
@[simp] theorem State.advance_next_error : (s.advance .next).error = s.error := rfl
@[simp] theorem State.advance_next_undefSeen : (s.advance .next).undefSeen = s.undefSeen := rfl
@[simp] theorem State.advance_next_loadError : (s.advance .next).loadError = s.loadError := rfl
@[simp] theorem State.advance_next_diag : (s.advance .next).diag = s.diag := rfl
@[simp] theorem State.advance_next_stepDone : (s.advance .next).stepDone = s.stepDone := rfl
@[simp] theorem State.advance_next_runEnable : (s.advance .next).runEnable = s.runEnable := rfl
@[simp] theorem State.advance_next_keysDown : (s.advance .next).keysDown = s.keysDown := rfl
@[simp] theorem State.advance_next_script : (s.advance .next).script = s.script := rfl
@[simp] theorem State.advance_next_draws : (s.advance .next).draws = s.draws := rfl
@[simp] theorem State.advance_next_params : (s.advance .next).params = s.params := rfl

/-! advance_skip -/

@[simp] theorem State.advance_skip_v : (s.advance .skip).v = s.v := rfl
@[simp] theorem State.advance_skip_i : (s.advance .skip).i = s.i := rfl
@[simp] theorem State.advance_skip_pc : (s.advance .skip).pc = s.pc + 4 := rfl
@[simp] theorem State.advance_skip_sp : (s.advance .skip).sp = s.sp := rfl
@[simp] theorem State.advance_skip_stack : (s.advance .skip).stack = s.stack := rfl
@[simp] theorem State.advance_skip_dt : (s.advance .skip).dt = s.dt := rfl
@[simp] theorem State.advance_skip_st : (s.advance .skip).st = s.st := rfl
@[simp] theorem State.advance_skip_mem : (s.advance .skip).mem = s.mem := rfl
@[simp] theorem State.advance_skip_fb : (s.advance .skip).fb = s.fb := rfl
@[simp] theorem State.advance_skip_status : (s.advance .skip).status = s.status := rfl
@[simp] theorem State.advance_skip_waitReg : (s.advance .skip).waitReg = s.waitReg := rfl
@[simp] theorem State.advance_skip_redrawPending : (s.advance .skip).redrawPending = s.redrawPending := rfl
@[simp] theorem State.advance_skip_error : (s.advance .skip).error = s.error := rfl
@[simp] theorem State.advance_skip_undefSeen : (s.advance .skip).undefSeen = s.undefSeen := rfl
@[simp] theorem State.advance_skip_loadError : (s.advance .skip).loadError = s.loadError := rfl
@[simp] theorem State.advance_skip_diag : (s.advance .skip).diag = s.diag := rfl
@[simp] theorem State.advance_skip_stepDone : (s.advance .skip).stepDone = s.stepDone := rfl
@[simp] theorem State.advance_skip_runEnable : (s.advance .skip).runEnable = s.runEnable := rfl
@[simp] theorem State.advance_skip_keysDown : (s.advance .skip).keysDown = s.keysDown := rfl
@[simp] theorem State.advance_skip_script : (s.advance .skip).script = s.script := rfl
@[simp] theorem State.advance_skip_draws : (s.advance .skip).draws = s.draws := rfl
@[simp] theorem State.advance_skip_params : (s.advance .skip).params = s.params := rfl

/-! advance_jump -/

@[simp] theorem State.advance_jump_v (w : Word) : (s.advance (.jump w)).v = s.v := rfl
@[simp] theorem State.advance_jump_i (w : Word) : (s.advance (.jump w)).i = s.i := rfl
@[simp] theorem State.advance_jump_pc (w : Word) : (s.advance (.jump w)).pc = w := rfl
@[simp] theorem State.advance_jump_sp (w : Word) : (s.advance (.jump w)).sp = s.sp := rfl
@[simp] theorem State.advance_jump_stack (w : Word) : (s.advance (.jump w)).stack = s.stack := rfl
@[simp] theorem State.advance_jump_dt (w : Word) : (s.advance (.jump w)).dt = s.dt := rfl
@[simp] theorem State.advance_jump_st (w : Word) : (s.advance (.jump w)).st = s.st := rfl
@[simp] theorem State.advance_jump_mem (w : Word) : (s.advance (.jump w)).mem = s.mem := rfl
@[simp] theorem State.advance_jump_fb (w : Word) : (s.advance (.jump w)).fb = s.fb := rfl
@[simp] theorem State.advance_jump_status (w : Word) : (s.advance (.jump w)).status = s.status := rfl
@[simp] theorem State.advance_jump_waitReg (w : Word) : (s.advance (.jump w)).waitReg = s.waitReg := rfl
@[simp] theorem State.advance_jump_redrawPending (w : Word) : (s.advance (.jump w)).redrawPending = s.redrawPending := rfl
@[simp] theorem State.advance_jump_error (w : Word) : (s.advance (.jump w)).error = s.error := rfl
@[simp] theorem State.advance_jump_undefSeen (w : Word) : (s.advance (.jump w)).undefSeen = s.undefSeen := rfl
@[simp] theorem State.advance_jump_loadError (w : Word) : (s.advance (.jump w)).loadError = s.loadError := rfl
@[simp] theorem State.advance_jump_diag (w : Word) : (s.advance (.jump w)).diag = s.diag := rfl
@[simp] theorem State.advance_jump_stepDone (w : Word) : (s.advance (.jump w)).stepDone = s.stepDone := rfl
@[simp] theorem State.advance_jump_runEnable (w : Word) : (s.advance (.jump w)).runEnable = s.runEnable := rfl
@[simp] theorem State.advance_jump_keysDown (w : Word) : (s.advance (.jump w)).keysDown = s.keysDown := rfl
@[simp] theorem State.advance_jump_script (w : Word) : (s.advance (.jump w)).script = s.script := rfl
@[simp] theorem State.advance_jump_draws (w : Word) : (s.advance (.jump w)).draws = s.draws := rfl
@[simp] theorem State.advance_jump_params (w : Word) : (s.advance (.jump w)).params = s.params := rfl

/-! advance_wait -/

@[simp] theorem State.advance_wait_v (x : Reg) : (s.advance (.wait x)).v = s.v := rfl
@[simp] theorem State.advance_wait_i (x : Reg) : (s.advance (.wait x)).i = s.i := rfl
@[simp] theorem State.advance_wait_pc (x : Reg) : (s.advance (.wait x)).pc = s.pc := rfl
@[simp] theorem State.advance_wait_sp (x : Reg) : (s.advance (.wait x)).sp = s.sp := rfl
@[simp] theorem State.advance_wait_stack (x : Reg) : (s.advance (.wait x)).stack = s.stack := rfl
@[simp] theorem State.advance_wait_dt (x : Reg) : (s.advance (.wait x)).dt = s.dt := rfl
@[simp] theorem State.advance_wait_st (x : Reg) : (s.advance (.wait x)).st = s.st := rfl
@[simp] theorem State.advance_wait_mem (x : Reg) : (s.advance (.wait x)).mem = s.mem := rfl
@[simp] theorem State.advance_wait_fb (x : Reg) : (s.advance (.wait x)).fb = s.fb := rfl
@[simp] theorem State.advance_wait_status (x : Reg) : (s.advance (.wait x)).status = .waitKey := rfl
@[simp] theorem State.advance_wait_waitReg (x : Reg) : (s.advance (.wait x)).waitReg = x := rfl
@[simp] theorem State.advance_wait_redrawPending (x : Reg) : (s.advance (.wait x)).redrawPending = s.redrawPending := rfl
@[simp] theorem State.advance_wait_error (x : Reg) : (s.advance (.wait x)).error = s.error := rfl
@[simp] theorem State.advance_wait_undefSeen (x : Reg) : (s.advance (.wait x)).undefSeen = s.undefSeen := rfl
@[simp] theorem State.advance_wait_loadError (x : Reg) : (s.advance (.wait x)).loadError = s.loadError := rfl
@[simp] theorem State.advance_wait_diag (x : Reg) : (s.advance (.wait x)).diag = s.diag := rfl
@[simp] theorem State.advance_wait_stepDone (x : Reg) : (s.advance (.wait x)).stepDone = s.stepDone := rfl
@[simp] theorem State.advance_wait_runEnable (x : Reg) : (s.advance (.wait x)).runEnable = s.runEnable := rfl
@[simp] theorem State.advance_wait_keysDown (x : Reg) : (s.advance (.wait x)).keysDown = s.keysDown := rfl
@[simp] theorem State.advance_wait_script (x : Reg) : (s.advance (.wait x)).script = s.script := rfl
@[simp] theorem State.advance_wait_draws (x : Reg) : (s.advance (.wait x)).draws = s.draws := rfl
@[simp] theorem State.advance_wait_params (x : Reg) : (s.advance (.wait x)).params = s.params := rfl

/-! halt -/

@[simp] theorem State.halt_v (f : Fault) : (s.halt f).v = s.v := rfl
@[simp] theorem State.halt_i (f : Fault) : (s.halt f).i = s.i := rfl
@[simp] theorem State.halt_pc (f : Fault) : (s.halt f).pc = s.pc := rfl
@[simp] theorem State.halt_sp (f : Fault) : (s.halt f).sp = s.sp := rfl
@[simp] theorem State.halt_stack (f : Fault) : (s.halt f).stack = s.stack := rfl
@[simp] theorem State.halt_dt (f : Fault) : (s.halt f).dt = s.dt := rfl
@[simp] theorem State.halt_st (f : Fault) : (s.halt f).st = s.st := rfl
@[simp] theorem State.halt_mem (f : Fault) : (s.halt f).mem = s.mem := rfl
@[simp] theorem State.halt_fb (f : Fault) : (s.halt f).fb = s.fb := rfl
@[simp] theorem State.halt_status (f : Fault) : (s.halt f).status = .halted := rfl
@[simp] theorem State.halt_waitReg (f : Fault) : (s.halt f).waitReg = s.waitReg := rfl
@[simp] theorem State.halt_redrawPending (f : Fault) : (s.halt f).redrawPending = s.redrawPending := rfl
@[simp] theorem State.halt_error (f : Fault) : (s.halt f).error = f.code := rfl
@[simp] theorem State.halt_undefSeen (f : Fault) : (s.halt f).undefSeen = s.undefSeen := rfl
@[simp] theorem State.halt_loadError (f : Fault) : (s.halt f).loadError = s.loadError := rfl
@[simp] theorem State.halt_diag (f : Fault) : (s.halt f).diag = s.diag := rfl
@[simp] theorem State.halt_stepDone (f : Fault) : (s.halt f).stepDone = s.stepDone := rfl
@[simp] theorem State.halt_runEnable (f : Fault) : (s.halt f).runEnable = s.runEnable := rfl
@[simp] theorem State.halt_keysDown (f : Fault) : (s.halt f).keysDown = s.keysDown := rfl
@[simp] theorem State.halt_script (f : Fault) : (s.halt f).script = s.script := rfl
@[simp] theorem State.halt_draws (f : Fault) : (s.halt f).draws = s.draws := rfl
@[simp] theorem State.halt_params (f : Fault) : (s.halt f).params = s.params := rfl

/-! tick -/

@[simp] theorem State.tick_v : (s.tick).v = s.v := rfl
@[simp] theorem State.tick_i : (s.tick).i = s.i := rfl
@[simp] theorem State.tick_pc : (s.tick).pc = s.pc := rfl
@[simp] theorem State.tick_sp : (s.tick).sp = s.sp := rfl
@[simp] theorem State.tick_stack : (s.tick).stack = s.stack := rfl
@[simp] theorem State.tick_dt : (s.tick).dt = countDown s.dt := rfl
@[simp] theorem State.tick_st : (s.tick).st = countDown s.st := rfl
@[simp] theorem State.tick_mem : (s.tick).mem = s.mem := rfl
@[simp] theorem State.tick_fb : (s.tick).fb = s.fb := rfl
@[simp] theorem State.tick_status : (s.tick).status = s.status := rfl
@[simp] theorem State.tick_waitReg : (s.tick).waitReg = s.waitReg := rfl
@[simp] theorem State.tick_redrawPending : (s.tick).redrawPending = s.redrawPending := rfl
@[simp] theorem State.tick_error : (s.tick).error = s.error := rfl
@[simp] theorem State.tick_undefSeen : (s.tick).undefSeen = s.undefSeen := rfl
@[simp] theorem State.tick_loadError : (s.tick).loadError = s.loadError := rfl
@[simp] theorem State.tick_diag : (s.tick).diag = s.diag := rfl
@[simp] theorem State.tick_stepDone : (s.tick).stepDone = s.stepDone := rfl
@[simp] theorem State.tick_runEnable : (s.tick).runEnable = s.runEnable := rfl
@[simp] theorem State.tick_keysDown : (s.tick).keysDown = s.keysDown := rfl
@[simp] theorem State.tick_script : (s.tick).script = s.script := rfl
@[simp] theorem State.tick_draws : (s.tick).draws = s.draws := rfl
@[simp] theorem State.tick_params : (s.tick).params = s.params := rfl

/-! requestRedraw -/

@[simp] theorem State.requestRedraw_v : (s.requestRedraw).v = s.v := rfl
@[simp] theorem State.requestRedraw_i : (s.requestRedraw).i = s.i := rfl
@[simp] theorem State.requestRedraw_pc : (s.requestRedraw).pc = s.pc := rfl
@[simp] theorem State.requestRedraw_sp : (s.requestRedraw).sp = s.sp := rfl
@[simp] theorem State.requestRedraw_stack : (s.requestRedraw).stack = s.stack := rfl
@[simp] theorem State.requestRedraw_dt : (s.requestRedraw).dt = s.dt := rfl
@[simp] theorem State.requestRedraw_st : (s.requestRedraw).st = s.st := rfl
@[simp] theorem State.requestRedraw_mem : (s.requestRedraw).mem = s.mem := rfl
@[simp] theorem State.requestRedraw_fb : (s.requestRedraw).fb = s.fb := rfl
@[simp] theorem State.requestRedraw_status : (s.requestRedraw).status = s.status := rfl
@[simp] theorem State.requestRedraw_waitReg : (s.requestRedraw).waitReg = s.waitReg := rfl
@[simp] theorem State.requestRedraw_redrawPending : (s.requestRedraw).redrawPending = true := rfl
@[simp] theorem State.requestRedraw_error : (s.requestRedraw).error = s.error := rfl
@[simp] theorem State.requestRedraw_undefSeen : (s.requestRedraw).undefSeen = s.undefSeen := rfl
@[simp] theorem State.requestRedraw_loadError : (s.requestRedraw).loadError = s.loadError := rfl
@[simp] theorem State.requestRedraw_diag : (s.requestRedraw).diag = s.diag := rfl
@[simp] theorem State.requestRedraw_stepDone : (s.requestRedraw).stepDone = s.stepDone := rfl
@[simp] theorem State.requestRedraw_runEnable : (s.requestRedraw).runEnable = s.runEnable := rfl
@[simp] theorem State.requestRedraw_keysDown : (s.requestRedraw).keysDown = s.keysDown := rfl
@[simp] theorem State.requestRedraw_script : (s.requestRedraw).script = s.script := rfl
@[simp] theorem State.requestRedraw_draws : (s.requestRedraw).draws = s.draws := rfl
@[simp] theorem State.requestRedraw_params : (s.requestRedraw).params = s.params := rfl

/-! beginInstant -/

@[simp] theorem State.beginInstant_v : (s.beginInstant).v = s.v := rfl
@[simp] theorem State.beginInstant_i : (s.beginInstant).i = s.i := rfl
@[simp] theorem State.beginInstant_pc : (s.beginInstant).pc = s.pc := rfl
@[simp] theorem State.beginInstant_sp : (s.beginInstant).sp = s.sp := rfl
@[simp] theorem State.beginInstant_stack : (s.beginInstant).stack = s.stack := rfl
@[simp] theorem State.beginInstant_dt : (s.beginInstant).dt = s.dt := rfl
@[simp] theorem State.beginInstant_st : (s.beginInstant).st = s.st := rfl
@[simp] theorem State.beginInstant_mem : (s.beginInstant).mem = s.mem := rfl
@[simp] theorem State.beginInstant_fb : (s.beginInstant).fb = s.fb := rfl
@[simp] theorem State.beginInstant_status : (s.beginInstant).status = s.status := rfl
@[simp] theorem State.beginInstant_waitReg : (s.beginInstant).waitReg = s.waitReg := rfl
@[simp] theorem State.beginInstant_redrawPending : (s.beginInstant).redrawPending = s.redrawPending := rfl
@[simp] theorem State.beginInstant_error : (s.beginInstant).error = s.error := rfl
@[simp] theorem State.beginInstant_undefSeen : (s.beginInstant).undefSeen = s.undefSeen := rfl
@[simp] theorem State.beginInstant_loadError : (s.beginInstant).loadError = s.loadError := rfl
@[simp] theorem State.beginInstant_diag : (s.beginInstant).diag = none := rfl
@[simp] theorem State.beginInstant_stepDone : (s.beginInstant).stepDone = false := rfl
@[simp] theorem State.beginInstant_runEnable : (s.beginInstant).runEnable = s.runEnable := rfl
@[simp] theorem State.beginInstant_keysDown : (s.beginInstant).keysDown = s.keysDown := rfl
@[simp] theorem State.beginInstant_script : (s.beginInstant).script = s.script := rfl
@[simp] theorem State.beginInstant_draws : (s.beginInstant).draws = s.draws := rfl
@[simp] theorem State.beginInstant_params : (s.beginInstant).params = s.params := rfl

/-! undefinedOpcode -/

@[simp] theorem State.undefinedOpcode_v (op : Word) : (s.undefinedOpcode op).v = s.v := rfl
@[simp] theorem State.undefinedOpcode_i (op : Word) : (s.undefinedOpcode op).i = s.i := rfl
@[simp] theorem State.undefinedOpcode_pc (op : Word) : (s.undefinedOpcode op).pc = s.pc + 2 := rfl
@[simp] theorem State.undefinedOpcode_sp (op : Word) : (s.undefinedOpcode op).sp = s.sp := rfl
@[simp] theorem State.undefinedOpcode_stack (op : Word) : (s.undefinedOpcode op).stack = s.stack := rfl
@[simp] theorem State.undefinedOpcode_dt (op : Word) : (s.undefinedOpcode op).dt = s.dt := rfl
@[simp] theorem State.undefinedOpcode_st (op : Word) : (s.undefinedOpcode op).st = s.st := rfl
@[simp] theorem State.undefinedOpcode_mem (op : Word) : (s.undefinedOpcode op).mem = s.mem := rfl
@[simp] theorem State.undefinedOpcode_fb (op : Word) : (s.undefinedOpcode op).fb = s.fb := rfl
@[simp] theorem State.undefinedOpcode_status (op : Word) : (s.undefinedOpcode op).status = s.status := rfl
@[simp] theorem State.undefinedOpcode_waitReg (op : Word) : (s.undefinedOpcode op).waitReg = s.waitReg := rfl
@[simp] theorem State.undefinedOpcode_redrawPending (op : Word) : (s.undefinedOpcode op).redrawPending = s.redrawPending := rfl
@[simp] theorem State.undefinedOpcode_error (op : Word) : (s.undefinedOpcode op).error = s.error := rfl
@[simp] theorem State.undefinedOpcode_undefSeen (op : Word) : (s.undefinedOpcode op).undefSeen = true := rfl
@[simp] theorem State.undefinedOpcode_loadError (op : Word) : (s.undefinedOpcode op).loadError = s.loadError := rfl
@[simp] theorem State.undefinedOpcode_diag (op : Word) : (s.undefinedOpcode op).diag = some ⟨op, s.pc⟩ := rfl
@[simp] theorem State.undefinedOpcode_stepDone (op : Word) : (s.undefinedOpcode op).stepDone = s.stepDone := rfl
@[simp] theorem State.undefinedOpcode_runEnable (op : Word) : (s.undefinedOpcode op).runEnable = s.runEnable := rfl
@[simp] theorem State.undefinedOpcode_keysDown (op : Word) : (s.undefinedOpcode op).keysDown = s.keysDown := rfl
@[simp] theorem State.undefinedOpcode_script (op : Word) : (s.undefinedOpcode op).script = s.script := rfl
@[simp] theorem State.undefinedOpcode_draws (op : Word) : (s.undefinedOpcode op).draws = s.draws := rfl
@[simp] theorem State.undefinedOpcode_params (op : Word) : (s.undefinedOpcode op).params = s.params := rfl

/-! drawByte_snd -/

@[simp] theorem State.drawByte_snd_v : (s.drawByte.2).v = s.v := rfl
@[simp] theorem State.drawByte_snd_i : (s.drawByte.2).i = s.i := rfl
@[simp] theorem State.drawByte_snd_pc : (s.drawByte.2).pc = s.pc := rfl
@[simp] theorem State.drawByte_snd_sp : (s.drawByte.2).sp = s.sp := rfl
@[simp] theorem State.drawByte_snd_stack : (s.drawByte.2).stack = s.stack := rfl
@[simp] theorem State.drawByte_snd_dt : (s.drawByte.2).dt = s.dt := rfl
@[simp] theorem State.drawByte_snd_st : (s.drawByte.2).st = s.st := rfl
@[simp] theorem State.drawByte_snd_mem : (s.drawByte.2).mem = s.mem := rfl
@[simp] theorem State.drawByte_snd_fb : (s.drawByte.2).fb = s.fb := rfl
@[simp] theorem State.drawByte_snd_status : (s.drawByte.2).status = s.status := rfl
@[simp] theorem State.drawByte_snd_waitReg : (s.drawByte.2).waitReg = s.waitReg := rfl
@[simp] theorem State.drawByte_snd_redrawPending : (s.drawByte.2).redrawPending = s.redrawPending := rfl
@[simp] theorem State.drawByte_snd_error : (s.drawByte.2).error = s.error := rfl
@[simp] theorem State.drawByte_snd_undefSeen : (s.drawByte.2).undefSeen = s.undefSeen := rfl
@[simp] theorem State.drawByte_snd_loadError : (s.drawByte.2).loadError = s.loadError := rfl
@[simp] theorem State.drawByte_snd_diag : (s.drawByte.2).diag = s.diag := rfl
@[simp] theorem State.drawByte_snd_stepDone : (s.drawByte.2).stepDone = s.stepDone := rfl
@[simp] theorem State.drawByte_snd_runEnable : (s.drawByte.2).runEnable = s.runEnable := rfl
@[simp] theorem State.drawByte_snd_keysDown : (s.drawByte.2).keysDown = s.keysDown := rfl
@[simp] theorem State.drawByte_snd_script : (s.drawByte.2).script = s.script := rfl
@[simp] theorem State.drawByte_snd_draws : (s.drawByte.2).draws = s.draws + 1 := rfl
@[simp] theorem State.drawByte_snd_params : (s.drawByte.2).params = s.params := rfl

/-! stepTick: only the timers move, and only under PER_STEP (R195, R196) -/

@[simp] theorem State.stepTick_v : s.stepTick.v = s.v := by
  unfold State.stepTick; split <;> rfl
@[simp] theorem State.stepTick_i : s.stepTick.i = s.i := by
  unfold State.stepTick; split <;> rfl
@[simp] theorem State.stepTick_pc : s.stepTick.pc = s.pc := by
  unfold State.stepTick; split <;> rfl
@[simp] theorem State.stepTick_sp : s.stepTick.sp = s.sp := by
  unfold State.stepTick; split <;> rfl
@[simp] theorem State.stepTick_stack : s.stepTick.stack = s.stack := by
  unfold State.stepTick; split <;> rfl
@[simp] theorem State.stepTick_dt :
    s.stepTick.dt = match s.params.timerMode with
      | .perStep => countDown s.dt
      | .externalTick => s.dt := by
  cases h : s.params.timerMode <;> simp [State.stepTick, State.tick, h]
@[simp] theorem State.stepTick_st :
    s.stepTick.st = match s.params.timerMode with
      | .perStep => countDown s.st
      | .externalTick => s.st := by
  cases h : s.params.timerMode <;> simp [State.stepTick, State.tick, h]
@[simp] theorem State.stepTick_mem : s.stepTick.mem = s.mem := by
  unfold State.stepTick; split <;> rfl
@[simp] theorem State.stepTick_fb : s.stepTick.fb = s.fb := by
  unfold State.stepTick; split <;> rfl
@[simp] theorem State.stepTick_status : s.stepTick.status = s.status := by
  unfold State.stepTick; split <;> rfl
@[simp] theorem State.stepTick_waitReg : s.stepTick.waitReg = s.waitReg := by
  unfold State.stepTick; split <;> rfl
@[simp] theorem State.stepTick_redrawPending : s.stepTick.redrawPending = s.redrawPending := by
  unfold State.stepTick; split <;> rfl
@[simp] theorem State.stepTick_error : s.stepTick.error = s.error := by
  unfold State.stepTick; split <;> rfl
@[simp] theorem State.stepTick_undefSeen : s.stepTick.undefSeen = s.undefSeen := by
  unfold State.stepTick; split <;> rfl
@[simp] theorem State.stepTick_loadError : s.stepTick.loadError = s.loadError := by
  unfold State.stepTick; split <;> rfl
@[simp] theorem State.stepTick_diag : s.stepTick.diag = s.diag := by
  unfold State.stepTick; split <;> rfl
@[simp] theorem State.stepTick_stepDone : s.stepTick.stepDone = s.stepDone := by
  unfold State.stepTick; split <;> rfl
@[simp] theorem State.stepTick_runEnable : s.stepTick.runEnable = s.runEnable := by
  unfold State.stepTick; split <;> rfl
@[simp] theorem State.stepTick_keysDown : s.stepTick.keysDown = s.keysDown := by
  unfold State.stepTick; split <;> rfl
@[simp] theorem State.stepTick_script : s.stepTick.script = s.script := by
  unfold State.stepTick; split <;> rfl
@[simp] theorem State.stepTick_draws : s.stepTick.draws = s.draws := by
  unfold State.stepTick; split <;> rfl
@[simp] theorem State.stepTick_params : s.stepTick.params = s.params := by
  unfold State.stepTick; split <;> rfl

/-! setAddIFlag: only V is written, and of V only VF (R162) -/

@[simp] theorem State.setAddIFlag_i (o : Bool) : (s.setAddIFlag o).i = s.i := by
  unfold State.setAddIFlag; split; · rfl
  · split <;> rfl
@[simp] theorem State.setAddIFlag_pc (o : Bool) : (s.setAddIFlag o).pc = s.pc := by
  unfold State.setAddIFlag; split; · rfl
  · split <;> rfl
@[simp] theorem State.setAddIFlag_sp (o : Bool) : (s.setAddIFlag o).sp = s.sp := by
  unfold State.setAddIFlag; split; · rfl
  · split <;> rfl
@[simp] theorem State.setAddIFlag_stack (o : Bool) : (s.setAddIFlag o).stack = s.stack := by
  unfold State.setAddIFlag; split; · rfl
  · split <;> rfl
@[simp] theorem State.setAddIFlag_dt (o : Bool) : (s.setAddIFlag o).dt = s.dt := by
  unfold State.setAddIFlag; split; · rfl
  · split <;> rfl
@[simp] theorem State.setAddIFlag_st (o : Bool) : (s.setAddIFlag o).st = s.st := by
  unfold State.setAddIFlag; split; · rfl
  · split <;> rfl
@[simp] theorem State.setAddIFlag_mem (o : Bool) : (s.setAddIFlag o).mem = s.mem := by
  unfold State.setAddIFlag; split; · rfl
  · split <;> rfl
@[simp] theorem State.setAddIFlag_fb (o : Bool) : (s.setAddIFlag o).fb = s.fb := by
  unfold State.setAddIFlag; split; · rfl
  · split <;> rfl
@[simp] theorem State.setAddIFlag_status (o : Bool) : (s.setAddIFlag o).status = s.status := by
  unfold State.setAddIFlag; split; · rfl
  · split <;> rfl
@[simp] theorem State.setAddIFlag_waitReg (o : Bool) : (s.setAddIFlag o).waitReg = s.waitReg := by
  unfold State.setAddIFlag; split; · rfl
  · split <;> rfl
@[simp] theorem State.setAddIFlag_redrawPending (o : Bool) : (s.setAddIFlag o).redrawPending = s.redrawPending := by
  unfold State.setAddIFlag; split; · rfl
  · split <;> rfl
@[simp] theorem State.setAddIFlag_error (o : Bool) : (s.setAddIFlag o).error = s.error := by
  unfold State.setAddIFlag; split; · rfl
  · split <;> rfl
@[simp] theorem State.setAddIFlag_undefSeen (o : Bool) : (s.setAddIFlag o).undefSeen = s.undefSeen := by
  unfold State.setAddIFlag; split; · rfl
  · split <;> rfl
@[simp] theorem State.setAddIFlag_loadError (o : Bool) : (s.setAddIFlag o).loadError = s.loadError := by
  unfold State.setAddIFlag; split; · rfl
  · split <;> rfl
@[simp] theorem State.setAddIFlag_diag (o : Bool) : (s.setAddIFlag o).diag = s.diag := by
  unfold State.setAddIFlag; split; · rfl
  · split <;> rfl
@[simp] theorem State.setAddIFlag_stepDone (o : Bool) : (s.setAddIFlag o).stepDone = s.stepDone := by
  unfold State.setAddIFlag; split; · rfl
  · split <;> rfl
@[simp] theorem State.setAddIFlag_runEnable (o : Bool) : (s.setAddIFlag o).runEnable = s.runEnable := by
  unfold State.setAddIFlag; split; · rfl
  · split <;> rfl
@[simp] theorem State.setAddIFlag_keysDown (o : Bool) : (s.setAddIFlag o).keysDown = s.keysDown := by
  unfold State.setAddIFlag; split; · rfl
  · split <;> rfl
@[simp] theorem State.setAddIFlag_script (o : Bool) : (s.setAddIFlag o).script = s.script := by
  unfold State.setAddIFlag; split; · rfl
  · split <;> rfl
@[simp] theorem State.setAddIFlag_draws (o : Bool) : (s.setAddIFlag o).draws = s.draws := by
  unfold State.setAddIFlag; split; · rfl
  · split <;> rfl
@[simp] theorem State.setAddIFlag_params (o : Bool) : (s.setAddIFlag o).params = s.params := by
  unfold State.setAddIFlag; split; · rfl
  · split <;> rfl

/-! drawSprite (R183) -/

@[simp] theorem State.drawSprite_v (x y : Reg) (sprite : List Byte) :
    (s.drawSprite x y sprite).v = s.v.set 15 (flagByte (blit s.fb ((s.reg x).toNat % 64) (s.reg y).toNat sprite).2) := by
  simp [State.drawSprite]
@[simp] theorem State.drawSprite_i (x y : Reg) (sprite : List Byte) :
    (s.drawSprite x y sprite).i = s.i := by
  simp [State.drawSprite]
@[simp] theorem State.drawSprite_pc (x y : Reg) (sprite : List Byte) :
    (s.drawSprite x y sprite).pc = s.pc := by
  simp [State.drawSprite]
@[simp] theorem State.drawSprite_sp (x y : Reg) (sprite : List Byte) :
    (s.drawSprite x y sprite).sp = s.sp := by
  simp [State.drawSprite]
@[simp] theorem State.drawSprite_stack (x y : Reg) (sprite : List Byte) :
    (s.drawSprite x y sprite).stack = s.stack := by
  simp [State.drawSprite]
@[simp] theorem State.drawSprite_dt (x y : Reg) (sprite : List Byte) :
    (s.drawSprite x y sprite).dt = s.dt := by
  simp [State.drawSprite]
@[simp] theorem State.drawSprite_st (x y : Reg) (sprite : List Byte) :
    (s.drawSprite x y sprite).st = s.st := by
  simp [State.drawSprite]
@[simp] theorem State.drawSprite_mem (x y : Reg) (sprite : List Byte) :
    (s.drawSprite x y sprite).mem = s.mem := by
  simp [State.drawSprite]
@[simp] theorem State.drawSprite_fb (x y : Reg) (sprite : List Byte) :
    (s.drawSprite x y sprite).fb = (blit s.fb ((s.reg x).toNat % 64) (s.reg y).toNat sprite).1 := by
  simp [State.drawSprite]
@[simp] theorem State.drawSprite_status (x y : Reg) (sprite : List Byte) :
    (s.drawSprite x y sprite).status = s.status := by
  simp [State.drawSprite]
@[simp] theorem State.drawSprite_waitReg (x y : Reg) (sprite : List Byte) :
    (s.drawSprite x y sprite).waitReg = s.waitReg := by
  simp [State.drawSprite]
@[simp] theorem State.drawSprite_redrawPending (x y : Reg) (sprite : List Byte) :
    (s.drawSprite x y sprite).redrawPending = true := by
  simp [State.drawSprite]
@[simp] theorem State.drawSprite_error (x y : Reg) (sprite : List Byte) :
    (s.drawSprite x y sprite).error = s.error := by
  simp [State.drawSprite]
@[simp] theorem State.drawSprite_undefSeen (x y : Reg) (sprite : List Byte) :
    (s.drawSprite x y sprite).undefSeen = s.undefSeen := by
  simp [State.drawSprite]
@[simp] theorem State.drawSprite_loadError (x y : Reg) (sprite : List Byte) :
    (s.drawSprite x y sprite).loadError = s.loadError := by
  simp [State.drawSprite]
@[simp] theorem State.drawSprite_diag (x y : Reg) (sprite : List Byte) :
    (s.drawSprite x y sprite).diag = s.diag := by
  simp [State.drawSprite]
@[simp] theorem State.drawSprite_stepDone (x y : Reg) (sprite : List Byte) :
    (s.drawSprite x y sprite).stepDone = s.stepDone := by
  simp [State.drawSprite]
@[simp] theorem State.drawSprite_runEnable (x y : Reg) (sprite : List Byte) :
    (s.drawSprite x y sprite).runEnable = s.runEnable := by
  simp [State.drawSprite]
@[simp] theorem State.drawSprite_keysDown (x y : Reg) (sprite : List Byte) :
    (s.drawSprite x y sprite).keysDown = s.keysDown := by
  simp [State.drawSprite]
@[simp] theorem State.drawSprite_script (x y : Reg) (sprite : List Byte) :
    (s.drawSprite x y sprite).script = s.script := by
  simp [State.drawSprite]
@[simp] theorem State.drawSprite_draws (x y : Reg) (sprite : List Byte) :
    (s.drawSprite x y sprite).draws = s.draws := by
  simp [State.drawSprite]
@[simp] theorem State.drawSprite_params (x y : Reg) (sprite : List Byte) :
    (s.drawSprite x y sprite).params = s.params := by
  simp [State.drawSprite]

/-! finishStep: beside the timers and `step_done`, nothing (R95, R102) -/

@[simp] theorem State.finishStep_v : s.finishStep.v = s.v := by
  unfold State.finishStep; split <;> simp
@[simp] theorem State.finishStep_i : s.finishStep.i = s.i := by
  unfold State.finishStep; split <;> simp
@[simp] theorem State.finishStep_pc : s.finishStep.pc = s.pc := by
  unfold State.finishStep; split <;> simp
@[simp] theorem State.finishStep_sp : s.finishStep.sp = s.sp := by
  unfold State.finishStep; split <;> simp
@[simp] theorem State.finishStep_stack : s.finishStep.stack = s.stack := by
  unfold State.finishStep; split <;> simp
@[simp] theorem State.finishStep_mem : s.finishStep.mem = s.mem := by
  unfold State.finishStep; split <;> simp
@[simp] theorem State.finishStep_fb : s.finishStep.fb = s.fb := by
  unfold State.finishStep; split <;> simp
@[simp] theorem State.finishStep_status : s.finishStep.status = s.status := by
  unfold State.finishStep; split <;> simp
@[simp] theorem State.finishStep_waitReg : s.finishStep.waitReg = s.waitReg := by
  unfold State.finishStep; split <;> simp
@[simp] theorem State.finishStep_redrawPending : s.finishStep.redrawPending = s.redrawPending := by
  unfold State.finishStep; split <;> simp
@[simp] theorem State.finishStep_error : s.finishStep.error = s.error := by
  unfold State.finishStep; split <;> simp
@[simp] theorem State.finishStep_undefSeen : s.finishStep.undefSeen = s.undefSeen := by
  unfold State.finishStep; split <;> simp
@[simp] theorem State.finishStep_loadError : s.finishStep.loadError = s.loadError := by
  unfold State.finishStep; split <;> simp
@[simp] theorem State.finishStep_diag : s.finishStep.diag = s.diag := by
  unfold State.finishStep; split <;> simp
@[simp] theorem State.finishStep_runEnable : s.finishStep.runEnable = s.runEnable := by
  unfold State.finishStep; split <;> simp
@[simp] theorem State.finishStep_keysDown : s.finishStep.keysDown = s.keysDown := by
  unfold State.finishStep; split <;> simp
@[simp] theorem State.finishStep_script : s.finishStep.script = s.script := by
  unfold State.finishStep; split <;> simp
@[simp] theorem State.finishStep_draws : s.finishStep.draws = s.draws := by
  unfold State.finishStep; split <;> simp
@[simp] theorem State.finishStep_params : s.finishStep.params = s.params := by
  unfold State.finishStep; split <;> simp

/-! completeWait: the fields a completed wait writes, and the others (R205) -/

@[simp] theorem State.completeWait_v (m : Word) :
    (s.completeWait m).v = s.v.set s.waitReg.toNat (BitVec.ofNat 8 (lowestSetBit m)) s.waitReg.isLt := by
  simp [State.completeWait]
@[simp] theorem State.completeWait_i (m : Word) : (s.completeWait m).i = s.i := by
  simp [State.completeWait]
@[simp] theorem State.completeWait_pc (m : Word) : (s.completeWait m).pc = s.pc + 2 := by
  simp [State.completeWait]
@[simp] theorem State.completeWait_sp (m : Word) : (s.completeWait m).sp = s.sp := by
  simp [State.completeWait]
@[simp] theorem State.completeWait_stack (m : Word) : (s.completeWait m).stack = s.stack := by
  simp [State.completeWait]
@[simp] theorem State.completeWait_mem (m : Word) : (s.completeWait m).mem = s.mem := by
  simp [State.completeWait]
@[simp] theorem State.completeWait_fb (m : Word) : (s.completeWait m).fb = s.fb := by
  simp [State.completeWait]
@[simp] theorem State.completeWait_status (m : Word) : (s.completeWait m).status = .run := by
  simp [State.completeWait]
@[simp] theorem State.completeWait_waitReg (m : Word) : (s.completeWait m).waitReg = s.waitReg := by
  simp [State.completeWait]
@[simp] theorem State.completeWait_redrawPending (m : Word) : (s.completeWait m).redrawPending = s.redrawPending := by
  simp [State.completeWait]
@[simp] theorem State.completeWait_error (m : Word) : (s.completeWait m).error = s.error := by
  simp [State.completeWait]
@[simp] theorem State.completeWait_undefSeen (m : Word) : (s.completeWait m).undefSeen = s.undefSeen := by
  simp [State.completeWait]
@[simp] theorem State.completeWait_loadError (m : Word) : (s.completeWait m).loadError = s.loadError := by
  simp [State.completeWait]
@[simp] theorem State.completeWait_diag (m : Word) : (s.completeWait m).diag = s.diag := by
  simp [State.completeWait]
@[simp] theorem State.completeWait_runEnable (m : Word) : (s.completeWait m).runEnable = s.runEnable := by
  simp [State.completeWait]
@[simp] theorem State.completeWait_keysDown (m : Word) : (s.completeWait m).keysDown = s.keysDown := by
  simp [State.completeWait]
@[simp] theorem State.completeWait_script (m : Word) : (s.completeWait m).script = s.script := by
  simp [State.completeWait]
@[simp] theorem State.completeWait_draws (m : Word) : (s.completeWait m).draws = s.draws := by
  simp [State.completeWait]
@[simp] theorem State.completeWait_params (m : Word) : (s.completeWait m).params = s.params := by
  simp [State.completeWait]

/-! powerOnReset and loadProgram: what survives them (R240, R242) -/

@[simp] theorem State.powerOnReset_stack : s.powerOnReset.stack = s.stack := rfl
@[simp] theorem State.loadProgram_stack (blob : List Byte) : (s.loadProgram blob).stack = s.stack := by
  unfold State.loadProgram; split <;> rfl
@[simp] theorem State.powerOnReset_runEnable : s.powerOnReset.runEnable = s.runEnable := rfl
@[simp] theorem State.loadProgram_runEnable (blob : List Byte) : (s.loadProgram blob).runEnable = s.runEnable := by
  unfold State.loadProgram; split <;> rfl
@[simp] theorem State.powerOnReset_keysDown : s.powerOnReset.keysDown = s.keysDown := rfl
@[simp] theorem State.loadProgram_keysDown (blob : List Byte) : (s.loadProgram blob).keysDown = s.keysDown := by
  unfold State.loadProgram; split <;> rfl
@[simp] theorem State.powerOnReset_script : s.powerOnReset.script = s.script := rfl
@[simp] theorem State.loadProgram_script (blob : List Byte) : (s.loadProgram blob).script = s.script := by
  unfold State.loadProgram; split <;> rfl
@[simp] theorem State.powerOnReset_draws : s.powerOnReset.draws = s.draws := rfl
@[simp] theorem State.loadProgram_draws (blob : List Byte) : (s.loadProgram blob).draws = s.draws := by
  unfold State.loadProgram; split <;> rfl
@[simp] theorem State.powerOnReset_params : s.powerOnReset.params = s.params := rfl
@[simp] theorem State.loadProgram_params (blob : List Byte) : (s.loadProgram blob).params = s.params := by
  unfold State.loadProgram; split <;> rfl

end Sys2Proof.Machine
end

