-- ==== Sys2Proof/Laws/Ops.lean ====
section
/-! SUPPORT. One lemma for each shared operation, saying everything it can do: register reads after writes, the stack, the
bounds check, the block transfers, the blit, the end of a step. -/

namespace Sys2Proof.Machine

/-! Registers -/

theorem State.reg_setReg (s : State) (x r : Reg) (b : Byte) : (s.setReg x b).reg r = if r = x then b else s.reg r := by
  simp only [State.reg, State.setReg, Vector.getElem_set]
  by_cases h : r = x
  · simp [h]
  · have : ¬x.toNat = r.toNat := fun e => h (BitVec.eq_of_toNat_eq e.symm)
    simp [h, this]

@[simp] theorem State.reg_setReg_self (s : State) (x : Reg) (b : Byte) : (s.setReg x b).reg x = b := by
  simp [State.reg_setReg]

theorem State.reg_setReg_other (s : State) {x r : Reg} (b : Byte) (h : r ≠ x) : (s.setReg x b).reg r = s.reg r := by
  simp [State.reg_setReg, h]

/-- `reg` reads V alone. -/
theorem State.reg_congr {s t : State} (h : t.v = s.v) (r : Reg) : t.reg r = s.reg r := by
  simp only [State.reg, h]

/-- Writing bytes from V[k] up: register r takes byte r - k if there is one. -/
theorem setRegsFrom_getElem (v : Vector Byte 16) (k : Nat) (bytes : List Byte) (r : Nat) (hr : r < 16) :
    (setRegsFrom v k bytes)[r] = if h : k ≤ r ∧ r - k < bytes.length then bytes[r - k]'h.2 else v[r] := by
  induction bytes generalizing v k with
  | nil => simp [setRegsFrom]
  | cons b rest ih =>
    rw [setRegsFrom, ih]
    by_cases h1 : k + 1 ≤ r ∧ r - (k + 1) < rest.length
    · have h2 : k ≤ r ∧ r - k < (b :: rest).length := by simp only [List.length_cons]; omega
      rw [dif_pos h1, dif_pos h2]
      have : r - k = (r - (k + 1)) + 1 := by omega
      simp only [this, List.getElem_cons_succ]
    · rw [dif_neg h1]
      by_cases h2 : k = r
      · subst h2
        simp [hr]
      · have h3 : ¬(k ≤ r ∧ r - k < (b :: rest).length) := by simp only [List.length_cons]; omega
        rw [dif_neg h3]
        split
        · exact Vector.getElem_set_ne _ _ h2
        · rfl

/-- Fx65's transfer: V0..Vx come from memory, the others stay (R166). -/
theorem State.reg_loadRegsUpTo (s : State) (x r : Reg) :
    (s.loadRegsUpTo x).reg r = if r.toNat ≤ x.toNat then s.byte (s.i.toNat + r.toNat) else s.reg r := by
  simp only [State.reg, State.loadRegsUpTo_v, State.bytes_eq, setRegsFrom_getElem, Memory.readBytes_length]
  by_cases h : r.toNat ≤ x.toNat
  · rw [dif_pos ⟨Nat.zero_le _, by omega⟩, if_pos h]
    simpa using Memory.readBytes_getElem s.mem s.i.toNat (x.toNat + 1) r.toNat (by omega)
  · rw [dif_neg (by omega), if_neg h]

/-- Fx55's bytes: there are x + 1. -/
theorem State.regsUpTo_length (s : State) (x : Reg) : (s.regsUpTo x).length = x.toNat + 1 := by
  have := x.isLt
  simp only [State.regsUpTo, List.length_take, Vector.length_toList]
  omega

/-- Fx55's bytes: byte r is V[r]. -/
theorem State.regsUpTo_getElem (s : State) (x r : Reg) (h : r.toNat < (s.regsUpTo x).length) :
    (s.regsUpTo x)[r.toNat] = s.reg r := by
  simp [State.regsUpTo, State.reg]

/-! The PC advance -/

@[simp] theorem complete_eq (a : Advance) (s : State) : complete a s = .next (s.advance a) := rfl

@[simp] theorem raise_eq (f : Fault) (s : State) : raise f s = .next (s.halt f) := rfl

theorem completeSkipIf_eq (c : Bool) (s : State) :
    completeSkipIf c s = .next { s with pc := if c then s.pc + 4 else s.pc + 2 } := by
  cases c <;> rfl

/-- An advance touches no register. -/
@[simp] theorem State.reg_advance (s : State) (a : Advance) (r : Reg) : (s.advance a).reg r = s.reg r := by
  cases a <;> rfl

/-! The stack -/

theorem State.push_ok (s : State) (w : Word) (h : s.sp.val < 16) :
    s.push w = .ok { s with stack := s.stack.set s.sp.val w h, sp := ⟨s.sp.val + 1, Nat.succ_lt_succ h⟩ } := by
  simp [State.push, h]

theorem State.push_full (s : State) (w : Word) (h : s.sp.val = 16) : s.push w = .error (.stackOverflow s.pc) := by
  simp [State.push, h]

theorem State.pop_empty (s : State) (h : s.sp.val = 0) : s.pop = .error (.stackUnderflow s.pc) := by
  simp [State.pop, h]

theorem State.pop_ok (s : State) (k : Fin 16) (h : s.sp.val = k.val + 1) :
    s.pop = .ok (s.stack[k], { s with sp := ⟨k.val, Nat.lt_succ_of_lt k.isLt⟩ }) := by
  simp [State.pop, h]

/-! The bounds check -/

theorem State.accessFault_none (s : State) (count : Nat) (h : count = 0 ∨ s.i.toNat + count - 1 ≤ memMax) :
    s.accessFault count = none := by
  unfold State.accessFault
  rw [if_neg (by omega)]

theorem State.accessFault_some (s : State) (count : Nat) (hc : 0 < count) (h : memMax < s.i.toNat + count - 1) :
    s.accessFault count = some (.addressOutOfRange (max s.i.toNat (memMax + 1))) := by
  unfold State.accessFault
  rw [if_pos ⟨hc, h⟩]

/-- What the bounds check can answer. -/
theorem State.accessFault_cases (s : State) (count : Nat) :
    (s.accessFault count = none ∧ (count = 0 ∨ s.i.toNat + count - 1 ≤ memMax)) ∨
      (∃ a, s.accessFault count = some (.addressOutOfRange a) ∧ 0 < count ∧ memMax < s.i.toNat + count - 1) := by
  by_cases h : count = 0 ∨ s.i.toNat + count - 1 ≤ memMax
  · exact .inl ⟨s.accessFault_none count h, h⟩
  · exact .inr ⟨_, s.accessFault_some count (by omega) (by omega), by omega, by omega⟩

/-! Frames: entering HALTED, and the small facts frames are built from -/

theorem halt_haltsWith (s : State) (f : Fault) : HaltsWith f.code s (s.halt f) := by
  refine ⟨rfl, rfl, fun p hp => ?_, fun r _ => rfl⟩
  cases p <;> simp_all [Part.same]

theorem Unchanged.refl (s : State) (l : List Part) : Unchanged l s s := by
  intro p _
  cases p <;> simp [Part.same]

theorem RegsUnchanged.refl (s : State) (l : List Reg) : RegsUnchanged l s s := fun _ _ => rfl

theorem Part.same_trans {p : Part} {s t u : State} (h : p.same s t) (k : p.same t u) : p.same s u := by
  cases p
  case mem => exact fun a => (k a).trans (h a)
  case stack => exact ⟨k.1.trans h.1, k.2.trans h.2⟩
  all_goals exact Eq.trans k h

theorem Unchanged.trans {l : List Part} {s t u : State} (h : Unchanged l s t) (k : Unchanged l t u) : Unchanged l s u :=
  fun p hp => Part.same_trans (h p hp) (k p hp)

theorem Unchanged.mono {l l' : List Part} {s t : State} (h : Unchanged l s t) (hl : ∀ p ∈ l, p ∈ l') :
    Unchanged l' s t :=
  fun p hp => h p fun hpl => hp (hl p hpl)

/-! The state of the instant -/

variable (s : State)

@[simp] theorem State.atInstant_v : s.atInstant.v = s.v := rfl
@[simp] theorem State.atInstant_i : s.atInstant.i = s.i := rfl
@[simp] theorem State.atInstant_pc : s.atInstant.pc = s.pc := rfl
@[simp] theorem State.atInstant_sp : s.atInstant.sp = s.sp := rfl
@[simp] theorem State.atInstant_stack : s.atInstant.stack = s.stack := rfl
@[simp] theorem State.atInstant_dt : s.atInstant.dt = s.dt := rfl
@[simp] theorem State.atInstant_st : s.atInstant.st = s.st := rfl
@[simp] theorem State.atInstant_mem : s.atInstant.mem = s.mem := rfl
@[simp] theorem State.atInstant_fb : s.atInstant.fb = s.fb := rfl
@[simp] theorem State.atInstant_status : s.atInstant.status = s.status := rfl
@[simp] theorem State.atInstant_waitReg : s.atInstant.waitReg = s.waitReg := rfl
@[simp] theorem State.atInstant_redrawPending : s.atInstant.redrawPending = s.redrawPending := rfl
@[simp] theorem State.atInstant_error : s.atInstant.error = s.error := rfl
@[simp] theorem State.atInstant_undefSeen : s.atInstant.undefSeen = s.undefSeen := rfl
@[simp] theorem State.atInstant_loadError : s.atInstant.loadError = s.loadError := rfl
@[simp] theorem State.atInstant_diag : s.atInstant.diag = none := rfl
@[simp] theorem State.atInstant_stepDone : s.atInstant.stepDone = false := rfl
@[simp] theorem State.atInstant_runEnable : s.atInstant.runEnable = s.runEnable := rfl
@[simp] theorem State.atInstant_keysDown : s.atInstant.keysDown = s.keysDown := rfl
@[simp] theorem State.atInstant_script : s.atInstant.script = (nextMove s).2 := rfl
@[simp] theorem State.atInstant_draws : s.atInstant.draws = s.draws := rfl
@[simp] theorem State.atInstant_params : s.atInstant.params = s.params := rfl
@[simp] theorem State.reg_atInstant (r : Reg) : s.atInstant.reg r = s.reg r := rfl

/-! Which updates leave every register alone -/

@[simp] theorem State.reg_setI (w : Word) (r : Reg) : (s.setI w).reg r = s.reg r := rfl
@[simp] theorem State.reg_bumpI (x r : Reg) : (s.bumpI x).reg r = s.reg r := rfl
@[simp] theorem State.reg_storeAtI (bytes : List Byte) (r : Reg) : (s.storeAtI bytes).reg r = s.reg r := rfl
@[simp] theorem State.reg_halt (f : Fault) (r : Reg) : (s.halt f).reg r = s.reg r := rfl
@[simp] theorem State.reg_tick (r : Reg) : s.tick.reg r = s.reg r := rfl
@[simp] theorem State.reg_requestRedraw (r : Reg) : s.requestRedraw.reg r = s.reg r := rfl
@[simp] theorem State.reg_undefinedOpcode (op : Word) (r : Reg) : (s.undefinedOpcode op).reg r = s.reg r := rfl
@[simp] theorem State.reg_drawByte_snd (r : Reg) : s.drawByte.2.reg r = s.reg r := rfl

@[simp] theorem State.reg_stepTick (r : Reg) : s.stepTick.reg r = s.reg r := State.reg_congr s.stepTick_v r

@[simp] theorem State.reg_finishStep (r : Reg) : s.finishStep.reg r = s.reg r := by
  unfold State.finishStep
  split
  · exact s.reg_stepTick r
  all_goals rfl

/-- Fx1E's flag write, register by register (R162). -/
theorem State.reg_setAddIFlag (o : Bool) (r : Reg) :
    (s.setAddIFlag o).reg r =
      if r = vf then (if o then 1 else match s.params.fx1eVf with | .unchanged => s.reg vf | .clear => 0) else s.reg r := by
  unfold State.setAddIFlag
  cases o
  · cases s.params.fx1eVf
    · by_cases hr : r = vf <;> simp [hr]
    · simp [State.reg_setReg]
  · simp [State.reg_setReg]

/-- Draw writes VF alone among the registers (R183). -/
theorem State.reg_drawSprite (x y : Reg) (sprite : List Byte) (r : Reg) :
    (s.drawSprite x y sprite).reg r =
      if r = vf then flagByte (blit s.fb ((s.reg x).toNat % 64) (s.reg y).toNat sprite).2 else s.reg r := by
  simp only [State.drawSprite, State.reg_requestRedraw, State.reg_setReg]
  rfl

/-! The blit -/

@[simp] theorem blit_nil (fb : Vector FbRow 32) (x0 y : Nat) : blit fb x0 y [] = (fb, false) := rfl

theorem blit_cons (fb : Vector FbRow 32) (x0 y : Nat) (b : Byte) (rest : List Byte) :
    blit fb x0 y (b :: rest) =
      ((blit (fb.set (y % 32) (fb[y % 32]'(Nat.mod_lt _ (by decide)) ^^^ place b x0) (Nat.mod_lt _ (by decide))) x0
          (y + 1) rest).1,
        collides (fb[y % 32]'(Nat.mod_lt _ (by decide))) (place b x0) ||
          (blit (fb.set (y % 32) (fb[y % 32]'(Nat.mod_lt _ (by decide)) ^^^ place b x0) (Nat.mod_lt _ (by decide))) x0
            (y + 1) rest).2) := rfl

/-! The end of a step -/

theorem State.finishStep_run (h : s.status = .run) : s.finishStep = { s.stepTick with stepDone := true } := by
  simp [State.finishStep, h]

theorem State.finishStep_waitKey (h : s.status = .waitKey) : s.finishStep = { s with stepDone := true } := by
  simp [State.finishStep, h]

theorem State.finishStep_halted (h : s.status = .halted) : s.finishStep = s := by
  simp [State.finishStep, h]

theorem countDown_toNat (t : Byte) : (countDown t).toNat = t.toNat - 1 := by
  unfold countDown
  split
  · next h => simp [h]
  · next h =>
    have h0 : t.toNat ≠ 0 := fun e => h (BitVec.eq_of_toNat_eq (by simpa using e))
    have := t.isLt
    rw [BitVec.toNat_sub, show (1 : Byte).toNat = 1 from rfl]
    omega

/-- The tick phase is the tick of `TimersTick`. -/
theorem State.stepTick_timers : TimersTick s s.stepTick := by
  cases h : s.params.timerMode with
  | perStep =>
    simp [TimersTick, State.stepTick, h, countDown_toNat]
  | externalTick => simp [TimersTick, State.stepTick, h]

/-! The host's moves, each said once -/

theorem State.strobeTick_cases :
    (s.params.timerMode = .externalTick ∧ (s.status = .run ∨ s.status = .waitKey) ∧ s.strobeTick = s.tick) ∨
      ((s.params.timerMode = .perStep ∨ s.status = .idle ∨ s.status = .halted) ∧ s.strobeTick = s) := by
  unfold State.strobeTick
  cases s.params.timerMode <;> cases s.status <;> simp

theorem State.frameAck_cases :
    ((s.status = .run ∨ s.status = .waitKey) ∧ s.frameAck = { s with redrawPending := false }) ∨
      ((s.status = .idle ∨ s.status = .halted) ∧ s.frameAck = s) := by
  unfold State.frameAck
  cases s.status <;> simp

theorem State.keyRelease_cases (m : Word) :
    (s.status = .waitKey ∧ s.runEnable = true ∧ m ≠ 0 ∧ s.keyRelease m = s.completeWait m) ∨
      (¬(s.status = .waitKey ∧ s.runEnable = true ∧ m ≠ 0) ∧ s.keyRelease m = s) := by
  unfold State.keyRelease
  split
  · next h => exact .inl ⟨h.1, h.2.1, h.2.2, rfl⟩
  · next h => exact .inr ⟨h, rfl⟩

theorem State.loadProgram_cases (blob : List Byte) :
    (3583 < blob.length ∧ s.loadProgram blob = { s with loadError := true }) ∨
      (blob.length ≤ 3583 ∧ s.loadProgram blob =
        { s.powerOnReset with
          mem := Memory.writeBytes s.params [] programBase blob, pc := 0x200, loadError := false, status := .run }) := by
  by_cases h : programMaxLen < blob.length
  · exact .inl ⟨h, if_pos h⟩
  · exact .inr ⟨Nat.le_of_not_lt h, if_neg h⟩

@[simp] theorem State.reg_completeWait_self (m : Word) :
    (s.completeWait m).reg s.waitReg = BitVec.ofNat 8 (lowestSetBit m) := by
  simp [State.reg]

theorem State.reg_completeWait_other (m : Word) {r : Reg} (h : r ≠ s.waitReg) : (s.completeWait m).reg r = s.reg r :=
  (State.reg_congr (s := s.setReg s.waitReg (BitVec.ofNat 8 (lowestSetBit m))) (by simp) r).trans
    (State.reg_setReg_other s _ h)

end Sys2Proof.Machine
end

