-- ==== Sys2Proof/Laws/PerInstr.lean ====
section
/-! SUPPORT. The family `Encoding`: the opcode of every instruction fits the row of spec/opcode_table.json that bears its
mnemonic. -/

namespace Sys2Proof.Laws.Encoding

/-- The opcode of i has the fixed bits of a row with i's mnemonic (30_encoding.md R72, R75). -/
def Statement (i : Instr) : Prop := (opcodeTable.any fun r => r.mnemonic == i.mnemonic && r.fits (encode i)) = true

/-- A row with the instruction's mnemonic that fits is enough. -/
theorem of_row {i : Instr} (r : OpcodeRow) (hr : r ∈ opcodeTable) (hm : r.mnemonic = i.mnemonic)
    (hf : r.fits (encode i) = true) : Statement i :=
  List.any_eq_true.2 ⟨r, hr, by simp [hm, hf]⟩

theorem clearScreen : Statement .clearScreen :=
  of_row ⟨"ClearScreen", 0x00E0, 0xFFFF⟩ (by decide) rfl (rfl)

theorem ret : Statement .ret :=
  of_row ⟨"Return", 0x00EE, 0xFFFF⟩ (by decide) rfl (rfl)

theorem jump (nnn : Addr) : Statement (.jump nnn) :=
  of_row ⟨"Jump", 0x1000, 0xF000⟩ (by decide) rfl (by simp [OpcodeRow.fits, encode, encodeA_and_mask])

theorem call (nnn : Addr) : Statement (.call nnn) :=
  of_row ⟨"Call", 0x2000, 0xF000⟩ (by decide) rfl (by simp [OpcodeRow.fits, encode, encodeA_and_mask])

theorem skipIfEqual (x : Reg) (kk : Byte) : Statement (.skipIfEqual x kk) :=
  of_row ⟨"SkipIfEqual", 0x3000, 0xF000⟩ (by decide) rfl (by simp [OpcodeRow.fits, encode, encodeXK_and_mask])

theorem skipIfNotEqual (x : Reg) (kk : Byte) : Statement (.skipIfNotEqual x kk) :=
  of_row ⟨"SkipIfNotEqual", 0x4000, 0xF000⟩ (by decide) rfl (by simp [OpcodeRow.fits, encode, encodeXK_and_mask])

theorem skipIfVxEqVy (x y : Reg) : Statement (.skipIfVxEqVy x y) :=
  of_row ⟨"SkipIfVxEqVy", 0x5000, 0xF00F⟩ (by decide) rfl (by simp [OpcodeRow.fits, encode, encodeXY_and_mask])

theorem loadImmediate (x : Reg) (kk : Byte) : Statement (.loadImmediate x kk) :=
  of_row ⟨"LoadImmediate", 0x6000, 0xF000⟩ (by decide) rfl (by simp [OpcodeRow.fits, encode, encodeXK_and_mask])

theorem addImmediate (x : Reg) (kk : Byte) : Statement (.addImmediate x kk) :=
  of_row ⟨"AddImmediate", 0x7000, 0xF000⟩ (by decide) rfl (by simp [OpcodeRow.fits, encode, encodeXK_and_mask])

theorem move (x y : Reg) : Statement (.move x y) :=
  of_row ⟨"Move", 0x8000, 0xF00F⟩ (by decide) rfl (by simp [OpcodeRow.fits, encode, encodeXY_and_mask])

theorem or (x y : Reg) : Statement (.or x y) :=
  of_row ⟨"Or", 0x8001, 0xF00F⟩ (by decide) rfl (by simp [OpcodeRow.fits, encode, encodeXY_and_mask])

theorem and (x y : Reg) : Statement (.and x y) :=
  of_row ⟨"And", 0x8002, 0xF00F⟩ (by decide) rfl (by simp [OpcodeRow.fits, encode, encodeXY_and_mask])

theorem xor (x y : Reg) : Statement (.xor x y) :=
  of_row ⟨"Xor", 0x8003, 0xF00F⟩ (by decide) rfl (by simp [OpcodeRow.fits, encode, encodeXY_and_mask])

theorem add (x y : Reg) : Statement (.add x y) :=
  of_row ⟨"Add", 0x8004, 0xF00F⟩ (by decide) rfl (by simp [OpcodeRow.fits, encode, encodeXY_and_mask])

theorem subXY (x y : Reg) : Statement (.subXY x y) :=
  of_row ⟨"SubXY", 0x8005, 0xF00F⟩ (by decide) rfl (by simp [OpcodeRow.fits, encode, encodeXY_and_mask])

theorem shiftRight (x y : Reg) : Statement (.shiftRight x y) :=
  of_row ⟨"ShiftRight", 0x8006, 0xF00F⟩ (by decide) rfl (by simp [OpcodeRow.fits, encode, encodeXY_and_mask])

theorem subYX (x y : Reg) : Statement (.subYX x y) :=
  of_row ⟨"SubYX", 0x8007, 0xF00F⟩ (by decide) rfl (by simp [OpcodeRow.fits, encode, encodeXY_and_mask])

theorem shiftLeft (x y : Reg) : Statement (.shiftLeft x y) :=
  of_row ⟨"ShiftLeft", 0x800E, 0xF00F⟩ (by decide) rfl (by simp [OpcodeRow.fits, encode, encodeXY_and_mask])

theorem skipIfVxNeVy (x y : Reg) : Statement (.skipIfVxNeVy x y) :=
  of_row ⟨"SkipIfVxNeVy", 0x9000, 0xF00F⟩ (by decide) rfl (by simp [OpcodeRow.fits, encode, encodeXY_and_mask])

theorem setI (nnn : Addr) : Statement (.setI nnn) :=
  of_row ⟨"SetI", 0xA000, 0xF000⟩ (by decide) rfl (by simp [OpcodeRow.fits, encode, encodeA_and_mask])

theorem jumpPlusV0 (nnn : Addr) : Statement (.jumpPlusV0 nnn) :=
  of_row ⟨"JumpPlusV0", 0xB000, 0xF000⟩ (by decide) rfl (by simp [OpcodeRow.fits, encode, encodeA_and_mask])

theorem random (x : Reg) (kk : Byte) : Statement (.random x kk) :=
  of_row ⟨"Random", 0xC000, 0xF000⟩ (by decide) rfl (by simp [OpcodeRow.fits, encode, encodeXK_and_mask])

theorem draw (x y : Reg) (n : RowCount) : Statement (.draw x y n) :=
  of_row ⟨"Draw", 0xD000, 0xF000⟩ (by decide) rfl (by simp [OpcodeRow.fits, encode, encodeXYN_and_mask])

theorem skipIfKeyDown (x : Reg) : Statement (.skipIfKeyDown x) :=
  of_row ⟨"SkipIfKeyDown", 0xE09E, 0xF0FF⟩ (by decide) rfl (by simp [OpcodeRow.fits, encode, encodeX_and_mask])

theorem skipIfKeyUp (x : Reg) : Statement (.skipIfKeyUp x) :=
  of_row ⟨"SkipIfKeyUp", 0xE0A1, 0xF0FF⟩ (by decide) rfl (by simp [OpcodeRow.fits, encode, encodeX_and_mask])

theorem loadDelayTimer (x : Reg) : Statement (.loadDelayTimer x) :=
  of_row ⟨"LoadDelayTimer", 0xF007, 0xF0FF⟩ (by decide) rfl (by simp [OpcodeRow.fits, encode, encodeX_and_mask])

theorem waitKey (x : Reg) : Statement (.waitKey x) :=
  of_row ⟨"WaitKey", 0xF00A, 0xF0FF⟩ (by decide) rfl (by simp [OpcodeRow.fits, encode, encodeX_and_mask])

theorem setDelayTimer (x : Reg) : Statement (.setDelayTimer x) :=
  of_row ⟨"SetDelayTimer", 0xF015, 0xF0FF⟩ (by decide) rfl (by simp [OpcodeRow.fits, encode, encodeX_and_mask])

theorem setSoundTimer (x : Reg) : Statement (.setSoundTimer x) :=
  of_row ⟨"SetSoundTimer", 0xF018, 0xF0FF⟩ (by decide) rfl (by simp [OpcodeRow.fits, encode, encodeX_and_mask])

theorem addToI (x : Reg) : Statement (.addToI x) :=
  of_row ⟨"AddToI", 0xF01E, 0xF0FF⟩ (by decide) rfl (by simp [OpcodeRow.fits, encode, encodeX_and_mask])

theorem loadFontAddress (x : Reg) : Statement (.loadFontAddress x) :=
  of_row ⟨"LoadFontAddress", 0xF029, 0xF0FF⟩ (by decide) rfl (by simp [OpcodeRow.fits, encode, encodeX_and_mask])

theorem storeBCD (x : Reg) : Statement (.storeBCD x) :=
  of_row ⟨"StoreBCD", 0xF033, 0xF0FF⟩ (by decide) rfl (by simp [OpcodeRow.fits, encode, encodeX_and_mask])

theorem storeRegisters (x : Reg) : Statement (.storeRegisters x) :=
  of_row ⟨"StoreRegisters", 0xF055, 0xF0FF⟩ (by decide) rfl (by simp [OpcodeRow.fits, encode, encodeX_and_mask])

theorem loadRegisters (x : Reg) : Statement (.loadRegisters x) :=
  of_row ⟨"LoadRegisters", 0xF065, 0xF0FF⟩ (by decide) rfl (by simp [OpcodeRow.fits, encode, encodeX_and_mask])

end Sys2Proof.Laws.Encoding
end

