-- ==== Sys2Proof/Laws/Step.lean ====
section
/-! SUPPORT. What `exec` answers for each instruction, and what a step can do. -/

namespace Sys2Proof.Machine

variable (s : State)

/-! The instructions that raise nothing -/

theorem exec_clearScreen :
    exec .clearScreen s = .next ({ s with fb := Vector.replicate 32 0, redrawPending := true, pc := s.pc + 2 }) := rfl

theorem exec_jump (nnn : Addr) :
    exec (.jump nnn) s = .next ({ s with pc := zextAddr nnn }) := rfl

theorem exec_jumpPlusV0 (nnn : Addr) :
    exec (.jumpPlusV0 nnn) s = .next ({ s with pc := s.plusV0 nnn }) := rfl

theorem exec_loadImmediate (x : Reg) (kk : Byte) :
    exec (.loadImmediate x kk) s = .next ((s.setReg x kk).advance .next) := rfl

theorem exec_addImmediate (x : Reg) (kk : Byte) :
    exec (.addImmediate x kk) s = .next ((s.setReg x (s.reg x + kk)).advance .next) := rfl

theorem exec_move (x y : Reg) :
    exec (.move x y) s = .next ((s.setReg x (s.reg y)).advance .next) := rfl

theorem exec_or (x y : Reg) :
    exec (.or x y) s = .next ((s.setReg x (s.reg x ||| s.reg y)).advance .next) := rfl

theorem exec_and (x y : Reg) :
    exec (.and x y) s = .next ((s.setReg x (s.reg x &&& s.reg y)).advance .next) := rfl

theorem exec_xor (x y : Reg) :
    exec (.xor x y) s = .next ((s.setReg x (s.reg x ^^^ s.reg y)).advance .next) := rfl

theorem exec_add (x y : Reg) :
    exec (.add x y) s = .next (((s.setReg x (s.reg x + s.reg y)).setReg vf (flagByte (addCarry (s.reg x) (s.reg y)))).advance .next) := rfl

theorem exec_subXY (x y : Reg) :
    exec (.subXY x y) s = .next (((s.setReg x (s.reg x - s.reg y)).setReg vf (flagByte (subFlag s.params (s.reg x) (s.reg y)))).advance .next) := rfl

theorem exec_subYX (x y : Reg) :
    exec (.subYX x y) s = .next (((s.setReg x (s.reg y - s.reg x)).setReg vf (flagByte (subFlag s.params (s.reg y) (s.reg x)))).advance .next) := rfl

theorem exec_setI (nnn : Addr) :
    exec (.setI nnn) s = .next ((s.setI (zextAddr nnn)).advance .next) := rfl

theorem exec_random (x : Reg) (kk : Byte) :
    exec (.random x kk) s = .next ((s.drawByte.2.setReg x (Config.randByte s.draws &&& kk)).advance .next) := rfl

theorem exec_loadDelayTimer (x : Reg) :
    exec (.loadDelayTimer x) s = .next ((s.setReg x s.dt).advance .next) := rfl

theorem exec_waitKey (x : Reg) :
    exec (.waitKey x) s = .next ({ s with waitReg := x, status := .waitKey }) := rfl

theorem exec_setDelayTimer (x : Reg) :
    exec (.setDelayTimer x) s = .next ({ s with dt := s.reg x, pc := s.pc + 2 }) := rfl

theorem exec_setSoundTimer (x : Reg) :
    exec (.setSoundTimer x) s = .next ({ s with st := s.reg x, pc := s.pc + 2 }) := rfl

theorem exec_addToI (x : Reg) :
    exec (.addToI x) s = .next (((s.setI (s.i + (s.reg x).setWidth 16)).setAddIFlag (addIOverflow s.i (s.reg x))).advance .next) := rfl

theorem exec_loadFontAddress (x : Reg) :
    exec (.loadFontAddress x) s = .next ((s.setI (fontAddress s.params (s.reg x))).advance .next) := rfl

/-! The skips -/

theorem exec_skipIfEqual (x : Reg) (kk : Byte) :
    exec (.skipIfEqual x kk) s = .next { s with pc := if s.reg x == kk then s.pc + 4 else s.pc + 2 } :=
  completeSkipIf_eq _ s

theorem exec_skipIfNotEqual (x : Reg) (kk : Byte) :
    exec (.skipIfNotEqual x kk) s = .next { s with pc := if s.reg x != kk then s.pc + 4 else s.pc + 2 } :=
  completeSkipIf_eq _ s

theorem exec_skipIfVxEqVy (x y : Reg) :
    exec (.skipIfVxEqVy x y) s = .next { s with pc := if s.reg x == s.reg y then s.pc + 4 else s.pc + 2 } :=
  completeSkipIf_eq _ s

theorem exec_skipIfVxNeVy (x y : Reg) :
    exec (.skipIfVxNeVy x y) s = .next { s with pc := if s.reg x != s.reg y then s.pc + 4 else s.pc + 2 } :=
  completeSkipIf_eq _ s

theorem exec_skipIfKeyDown (x : Reg) :
    exec (.skipIfKeyDown x) s = .next { s with pc := if s.keyPressed (s.reg x) then s.pc + 4 else s.pc + 2 } :=
  completeSkipIf_eq _ s

theorem exec_skipIfKeyUp (x : Reg) :
    exec (.skipIfKeyUp x) s = .next { s with pc := if !s.keyPressed (s.reg x) then s.pc + 4 else s.pc + 2 } :=
  completeSkipIf_eq _ s

/-! The shifts -/

theorem exec_shiftRight (x y : Reg) :
    exec (.shiftRight x y) s =
      .next (((s.setReg vf (flagByte (shiftRightFlag (s.reg (shiftSource s.params x y))))).setReg x
        (s.shiftOperand (s.setReg vf (flagByte (shiftRightFlag (s.reg (shiftSource s.params x y)))))
          (shiftSource s.params x y) >>> 1)).advance .next) := rfl

theorem exec_shiftLeft (x y : Reg) :
    exec (.shiftLeft x y) s =
      .next (((s.setReg vf (flagByte (shiftLeftFlag (s.reg (shiftSource s.params x y))))).setReg x
        (s.shiftOperand (s.setReg vf (flagByte (shiftLeftFlag (s.reg (shiftSource s.params x y)))))
          (shiftSource s.params x y) <<< 1)).advance .next) := rfl

/-! The instructions with a fatal condition of their own: where they complete, and where they raise -/

theorem exec_call (nnn : Addr) (h : s.sp.val < 16) :
    exec (.call nnn) s =
      .next { s with
        stack := s.stack.set s.sp.val s.pc h, sp := ⟨s.sp.val + 1, Nat.succ_lt_succ h⟩, pc := zextAddr nnn } := by
  simp [exec, execCall, s.push_ok s.pc h, State.advance]

theorem exec_call_full (nnn : Addr) (h : s.sp.val = 16) : exec (.call nnn) s = .next (s.halt (.stackOverflow s.pc)) := by
  simp [exec, execCall, s.push_full s.pc h]

theorem exec_ret (k : Fin 16) (h : s.sp.val = k.val + 1) :
    exec .ret s = .next { s with sp := ⟨k.val, Nat.lt_succ_of_lt k.isLt⟩, pc := s.stack[k] + 2 } := by
  simp [exec, execRet, s.pop_ok k h, State.advance]

theorem exec_ret_empty (h : s.sp.val = 0) : exec .ret s = .next (s.halt (.stackUnderflow s.pc)) := by
  simp [exec, execRet, s.pop_empty h]

theorem exec_draw (x y : Reg) (n : RowCount) (h : s.accessFault n.toNat = none) :
    exec (.draw x y n) s = .next ((s.drawSprite x y (s.spriteBytes n)).advance .next) := by
  simp [exec, execDraw, h]

theorem exec_storeBCD (x : Reg) (h : s.accessFault 3 = none) :
    exec (.storeBCD x) s = .next ((s.storeAtI (bcdDigits (s.reg x))).advance .next) := by
  simp [exec, execStoreBCD, h]

theorem exec_storeRegisters (x : Reg) (h : s.accessFault (x.toNat + 1) = none) :
    exec (.storeRegisters x) s = .next (((s.storeAtI (s.regsUpTo x)).bumpI x).advance .next) := by
  simp [exec, execStoreRegisters, h]

theorem exec_loadRegisters (x : Reg) (h : s.accessFault (x.toNat + 1) = none) :
    exec (.loadRegisters x) s = .next (((s.loadRegsUpTo x).bumpI x).advance .next) := by
  simp [exec, execLoadRegisters, h]

theorem exec_draw_fault (x y : Reg) (n : RowCount) {f : Fault} (h : s.accessFault n.toNat = some f) :
    exec (.draw x y n) s = .next (s.halt f) := by
  simp [exec, execDraw, h]

theorem exec_storeBCD_fault (x : Reg) {f : Fault} (h : s.accessFault 3 = some f) :
    exec (.storeBCD x) s = .next (s.halt f) := by
  simp [exec, execStoreBCD, h]

theorem exec_storeRegisters_fault (x : Reg) {f : Fault} (h : s.accessFault (x.toNat + 1) = some f) :
    exec (.storeRegisters x) s = .next (s.halt f) := by
  simp [exec, execStoreRegisters, h]

theorem exec_loadRegisters_fault (x : Reg) {f : Fault} (h : s.accessFault (x.toNat + 1) = some f) :
    exec (.loadRegisters x) s = .next (s.halt f) := by
  simp [exec, execLoadRegisters, h]

/-- Every meaning answers a next state. -/
theorem exec_next (i : Instr) : ∃ t, exec i s = .next t := by
  cases i
  case ret =>
    by_cases h : s.sp.val = 0
    · exact ⟨_, exec_ret_empty s h⟩
    · exact ⟨_, exec_ret s ⟨s.sp.val - 1, by have := s.sp.isLt; omega⟩ (by show _ = s.sp.val - 1 + 1; omega)⟩
  case call nnn =>
    by_cases h : s.sp.val < 16
    · exact ⟨_, exec_call s nnn h⟩
    · exact ⟨_, exec_call_full s nnn (by have := s.sp.isLt; omega)⟩
  case draw x y n =>
    rcases s.accessFault_cases n.toNat with ⟨h, _⟩ | ⟨a, h, _⟩
    · exact ⟨_, exec_draw s x y n h⟩
    · exact ⟨_, exec_draw_fault s x y n h⟩
  case storeBCD x =>
    rcases s.accessFault_cases 3 with ⟨h, _⟩ | ⟨a, h, _⟩
    · exact ⟨_, exec_storeBCD s x h⟩
    · exact ⟨_, exec_storeBCD_fault s x h⟩
  case storeRegisters x =>
    rcases s.accessFault_cases (x.toNat + 1) with ⟨h, _⟩ | ⟨a, h, _⟩
    · exact ⟨_, exec_storeRegisters s x h⟩
    · exact ⟨_, exec_storeRegisters_fault s x h⟩
  case loadRegisters x =>
    rcases s.accessFault_cases (x.toNat + 1) with ⟨h, _⟩ | ⟨a, h, _⟩
    · exact ⟨_, exec_loadRegisters s x h⟩
    · exact ⟨_, exec_loadRegisters_fault s x h⟩
  all_goals exact ⟨_, rfl⟩

/-! A step -/

/-- The host's next move, said once: none left, a `Load` that waits for the running loop (R47, log 13), or the head of
the script. -/
theorem nextMove_cases :
    (s.script = [] ∧ nextMove s = (.quiet, [])) ∨
      (∃ blob rest, s.script = .load blob :: rest ∧ s.status = .run ∧ s.runEnable = true ∧ nextMove s = (.quiet, s.script)) ∨
        ∃ m rest, s.script = m :: rest ∧ ¬(m.isLoad = true ∧ s.status = .run ∧ s.runEnable = true) ∧
          nextMove s = (m, rest) := by
  unfold nextMove
  cases s.script with
  | nil => exact .inl ⟨rfl, rfl⟩
  | cons m rest =>
    refine .inr ?_
    by_cases h : m.isLoad = true ∧ s.status = .run ∧ s.runEnable = true
    · obtain ⟨blob, rfl⟩ : ∃ blob, m = .load blob := by
        cases m <;> simp_all [HostMove.isLoad]
      exact .inl ⟨blob, rest, rfl, h.2.1, h.2.2, if_pos h⟩
    · exact .inr ⟨m, rest, rfl, h, if_neg h⟩

/-- A step is the host's next move on the state of the instant. -/
theorem step_eq : step s = hostMove (nextMove s).1 s.atInstant := rfl

theorem step_of_not_stepping (hq : Quiet s) (h : s.status ≠ .run ∨ s.runEnable = false) : step s = .next s.atInstant := by
  rw [step_eq, hq]
  have h' : ¬(s.atInstant.status = .run ∧ s.atInstant.runEnable = true) := by
    rintro ⟨h1, h2⟩
    rcases h with h | h
    · exact h h1
    · exact absurd (h2.symm.trans h) (by decide)
  exact if_neg h'

theorem step_of_steps (h : Steps s) : step s = loopStep s.atInstant := by
  obtain ⟨hq, hr, he⟩ := h
  rw [step_eq, hq]
  show loopTurn s.atInstant = _
  exact if_pos ⟨hr, he⟩

/-- The fetch of a step, where it faults. -/
theorem step_of_fetch_fault (h : Steps s) (hpc : 0xFFE ≤ s.pc.toNat) :
    step s = .next (s.atInstant.halt (.addressOutOfRange s.pc.toNat)) := by
  have hf : fetch s.atInstant = .error (.addressOutOfRange s.pc.toNat) := by
    have : memMax < s.atInstant.pc.toNat + 1 := Nat.lt_succ_of_le hpc
    simp only [fetch, State.fetchFault, if_pos this]
    rfl
  rw [step_of_steps s h, loopStep, hf]
  rfl

/-- The fetch of a step, where it reads an opcode. -/
theorem step_of_fetches (h : Steps s) {op : Word} (hop : Fetches s op) : step s = runOpcode op s.atInstant := by
  have hf : fetch s.atInstant = .ok op := by
    have hle : s.atInstant.pc.toNat + 1 ≤ memMax := hop.1
    have : ¬memMax < s.atInstant.pc.toNat + 1 := Nat.not_lt_of_le hle
    simp only [fetch, State.fetchFault, if_neg this]
    exact congrArg Except.ok hop.2.symm
  rw [step_of_steps s h, loopStep, hf]

/-- A step that decodes: `exec`, then the end of the step. -/
theorem step_of_decodes (h : Steps s) {op : Word} (hop : Fetches s op) {i : Instr} (hd : decode op = .ok i) {t : State}
    (ht : exec i s.atInstant = .next t) : step s = .next t.finishStep := by
  rw [step_of_fetches s h hop, runOpcode, hd]
  simp only [ht, finishOutcome]

/-- A step whose opcode is Undefined. -/
theorem step_of_undefined (h : Steps s) {op : Word} (hop : Fetches s op) {r : Reject} (hd : decode op = .error r) :
    step s = .next (s.atInstant.undefinedOpcode op).finishStep := by
  rw [step_of_fetches s h hop, runOpcode, hd]

/-- The loop's step, said once: a faulting fetch, an Undefined opcode, or an instruction. -/
theorem stepping_cases (h : Steps s) {u : State} (hu : step s = .next u) :
    (0xFFE ≤ s.pc.toNat ∧ u = s.atInstant.halt (.addressOutOfRange s.pc.toNat)) ∨
      ∃ op, Fetches s op ∧
        ((∃ r, decode op = .error r ∧ u = (s.atInstant.undefinedOpcode op).finishStep) ∨
          ∃ i t, decode op = .ok i ∧ exec i s.atInstant = .next t ∧ u = t.finishStep) := by
  by_cases hpc : 0xFFE ≤ s.pc.toNat
  · left
    rw [step_of_fetch_fault s h hpc] at hu
    exact ⟨hpc, (Host.Outcome.next.inj hu).symm⟩
  · right
    refine ⟨_, ⟨by omega, rfl⟩, ?_⟩
    have hop : Fetches s (opcodeOfBytes (s.byte s.pc.toNat) (s.byte (s.pc.toNat + 1))) := ⟨by omega, rfl⟩
    cases hd : decode (opcodeOfBytes (s.byte s.pc.toNat) (s.byte (s.pc.toNat + 1))) with
    | error r =>
      rw [step_of_undefined s h hop hd] at hu
      exact .inl ⟨r, rfl, (Host.Outcome.next.inj hu).symm⟩
    | ok i =>
      obtain ⟨t, ht⟩ := exec_next s.atInstant i
      rw [step_of_decodes s h hop hd ht] at hu
      exact .inr ⟨i, t, rfl, ht, (Host.Outcome.next.inj hu).symm⟩

end Sys2Proof.Machine
end

