-- ==== Sys2Proof/Tests/Slice0.lean ====
section
/-! SUPPORT. Tests. Every expected value is written by hand from the patterns of 30_encoding.md R75 or from the vectors of
95_test_vectors.md, whose id the comment names; and the witnesses of the obligations. -/

namespace Sys2Proof.Tests

open Sys2Proof.Machine

/-! Decoding: one word of every row, written from the row's pattern (R75) -/

theorem test_decode_clearScreen : decode 0b0000000011100000#16 = .ok .clearScreen := by decide
theorem test_decode_ret : decode 0b0000000011101110#16 = .ok .ret := by decide
theorem test_decode_jump : decode 0b0001001000110100#16 = .ok (.jump 0x234) := by decide
theorem test_decode_call : decode 0b0010001101000000#16 = .ok (.call 0x340) := by decide
theorem test_decode_skipIfEqual : decode 0b0011001100010000#16 = .ok (.skipIfEqual 3 0x10) := by decide
theorem test_decode_skipIfNotEqual : decode 0b0100001100010001#16 = .ok (.skipIfNotEqual 3 0x11) := by decide
theorem test_decode_skipIfVxEqVy : decode 0b0101000100100000#16 = .ok (.skipIfVxEqVy 1 2) := by decide
theorem test_decode_loadImmediate : decode 0b0110111110101011#16 = .ok (.loadImmediate 0xF 0xAB) := by decide
theorem test_decode_addImmediate : decode 0b0111000100110011#16 = .ok (.addImmediate 1 0x33) := by decide
theorem test_decode_move : decode 0b1000000100100000#16 = .ok (.move 1 2) := by decide
theorem test_decode_or : decode 0b1000000100100001#16 = .ok (.or 1 2) := by decide
theorem test_decode_and : decode 0b1000000100100010#16 = .ok (.and 1 2) := by decide
theorem test_decode_xor : decode 0b1000000100100011#16 = .ok (.xor 1 2) := by decide
theorem test_decode_add : decode 0b1000111100010100#16 = .ok (.add 0xF 1) := by decide
theorem test_decode_subXY : decode 0b1000000100100101#16 = .ok (.subXY 1 2) := by decide
theorem test_decode_shiftRight : decode 0b1000000101110110#16 = .ok (.shiftRight 1 7) := by decide
theorem test_decode_subYX : decode 0b1000000100100111#16 = .ok (.subYX 1 2) := by decide
theorem test_decode_shiftLeft : decode 0b1000000100001110#16 = .ok (.shiftLeft 1 0) := by decide
theorem test_decode_skipIfVxNeVy : decode 0b1001000100100000#16 = .ok (.skipIfVxNeVy 1 2) := by decide
theorem test_decode_setI : decode 0b1010001011110000#16 = .ok (.setI 0x2F0) := by decide
theorem test_decode_jumpPlusV0 : decode 0b1011010100000000#16 = .ok (.jumpPlusV0 0x500) := by decide
theorem test_decode_random : decode 0b1100001100001111#16 = .ok (.random 3 0x0F) := by decide
theorem test_decode_draw : decode 0b1101000000010101#16 = .ok (.draw 0 1 5) := by decide
theorem test_decode_skipIfKeyDown : decode 0b1110000110011110#16 = .ok (.skipIfKeyDown 1) := by decide
theorem test_decode_skipIfKeyUp : decode 0b1110000110100001#16 = .ok (.skipIfKeyUp 1) := by decide
theorem test_decode_loadDelayTimer : decode 0b1111001100000111#16 = .ok (.loadDelayTimer 3) := by decide
theorem test_decode_waitKey : decode 0b1111001100001010#16 = .ok (.waitKey 3) := by decide
theorem test_decode_setDelayTimer : decode 0b1111001000010101#16 = .ok (.setDelayTimer 2) := by decide
theorem test_decode_setSoundTimer : decode 0b1111001000011000#16 = .ok (.setSoundTimer 2) := by decide
theorem test_decode_addToI : decode 0b1111001000011110#16 = .ok (.addToI 2) := by decide
theorem test_decode_loadFontAddress : decode 0b1111010000101001#16 = .ok (.loadFontAddress 4) := by decide
theorem test_decode_storeBCD : decode 0b1111000100110011#16 = .ok (.storeBCD 1) := by decide
theorem test_decode_storeRegisters : decode 0b1111000101010101#16 = .ok (.storeRegisters 1) := by decide
theorem test_decode_loadRegisters : decode 0b1111001001100101#16 = .ok (.loadRegisters 2) := by decide

/-- The high byte stands first (R53). -/
theorem test_decodeBytes_order : decodeBytes [0x61, 0x33, 0x71] = .ok (.loadImmediate 1 0x33, [0x71]) := by decide
theorem test_decodeBytes_truncated : decodeBytes [0x61] = .error .truncated := by decide
theorem test_decodeTableWord : decodeTableWord 16 0x8124 = some (.add 1 2) := by decide
theorem test_decodeTableWord_undefined : decodeTableWord 16 0x8128 = none := by decide

/-! Well-formedness: one word that each check of R76 refuses, and its decoding by name -/

theorem test_illFormed_group0 :
    wellFormedWord 0x01E0 = false ∧ tableWord 0x01E0 = false ∧ decode 0x01E0 = .error .undefinedGroup0 := by
  decide
theorem test_illFormed_group5 :
    wellFormedWord 0x5121 = false ∧ tableWord 0x5121 = false ∧ decode 0x5121 = .error .undefinedGroup5 := by
  decide
theorem test_illFormed_group8 :
    wellFormedWord 0x812F = false ∧ tableWord 0x812F = false ∧ decode 0x812F = .error .undefinedGroup8 := by
  decide
theorem test_illFormed_group9 :
    wellFormedWord 0x9118 = false ∧ tableWord 0x9118 = false ∧ decode 0x9118 = .error .undefinedGroup9 := by
  decide
theorem test_illFormed_groupE :
    wellFormedWord 0xE1A0 = false ∧ tableWord 0xE1A0 = false ∧ decode 0xE1A0 = .error .undefinedGroupE := by
  decide
theorem test_illFormed_groupF :
    wellFormedWord 0xF1FF = false ∧ tableWord 0xF1FF = false ∧ decode 0xF1FF = .error .undefinedGroupF := by
  decide
theorem test_wellFormed : wellFormedWord 0x00E0 = true ∧ wellFormedWord 0x812E = true ∧ tableWord 0x812E = true := by decide

/-! One step -/

/-- The starting state of 95_test_vectors.md: what `Load` of an empty program leaves, with the loop enabled. -/
def loaded : State := { State.reset with status := .run, runEnable := true }

/-- The starting state with registers set. -/
def withRegs (l : List (Reg × Byte)) : State := l.foldl (fun s p => s.setReg p.1 p.2) loaded

/-- The starting state with one framebuffer row set. -/
def withRow (s : State) (r : Fin 32) (row : FbRow) : State := { s with fb := s.fb.set r.val row r.isLt }

/-- One step with the opcode placed at PC. -/
def run (s : State) (op : Nat) : Option State :=
  match step (s.withFetchWord 16 op) with
  | .next t => some t
  | .fault _ => none
  | .refused _ => none

/-- One instant with this move of the host. -/
def play (s : State) (m : HostMove) : Option State :=
  match step { s with script := [m] } with
  | .next t => some t
  | .fault _ => none
  | .refused _ => none

/-- STATUS, ERROR and PC. -/
def outcome (t : State) : Status × BitVec 3 × Word := (t.status, t.error, t.pc)

/-- V41.1 -/
theorem test_ret_pops :
    (run ({ loaded with sp := 1, stack := loaded.stack.set 0 0x204, pc := 0x340 } : State) 0x00EE).map (fun t =>
      (t.pc, t.sp)) =
      some (0x206, 0) := by
  decide
/-- V41.2 -/
theorem test_ret_underflow :
    (run ({ loaded with pc := 0x340 } : State) 0x00EE).map (fun t => outcome t) = some (.halted, 5, 0x340) := by
  decide
/-- V41.4 -/
theorem test_jump : (run loaded 0x1234).map (fun t => t.pc) = some 0x234 := by decide
/-- V41.7 -/
theorem test_call_pushes :
    (run ({ loaded with pc := 0x204 } : State) 0x2340).map (fun t => (t.pc, t.sp, t.stack[0])) =
      some (0x340, 1, 0x204) := by
  decide
/-- V41.9 -/
theorem test_call_overflow :
    (run ({ loaded with sp := 16 } : State) 0x2340).map (fun t => outcome t) = some (.halted, 3, 0x200) := by
  decide
/-- V41.10 -/
theorem test_skipIfEqual_takes : (run (withRegs [(0x3, 0x10)]) 0x3310).map (fun t => t.pc) = some 0x204 := by decide
/-- V41.11 -/
theorem test_skipIfEqual_falls : (run (withRegs [(0x3, 0x10)]) 0x3311).map (fun t => t.pc) = some 0x202 := by decide
/-- V41.12 -/
theorem test_skipIfNotEqual_falls :
    (run (withRegs [(0x3, 0x10)]) 0x4310).map (fun t => t.pc) = some 0x202 := by
  decide
/-- V41.13 -/
theorem test_skipIfNotEqual_takes :
    (run (withRegs [(0x3, 0x10)]) 0x4311).map (fun t => t.pc) = some 0x204 := by
  decide
/-- V41.14 -/
theorem test_skipIfVxEqVy_takes :
    (run (withRegs [(0x1, 0x07), (0x2, 0x07)]) 0x5120).map (fun t => t.pc) = some 0x204 := by
  decide
/-- V41.15 -/
theorem test_skipIfVxEqVy_falls :
    (run (withRegs [(0x1, 0x07), (0x2, 0x08)]) 0x5120).map (fun t => t.pc) = some 0x202 := by
  decide
/-- V41.18 -/
theorem test_skipIfVxNeVy_takes :
    (run (withRegs [(0x1, 0x07), (0x2, 0x08)]) 0x9120).map (fun t => t.pc) = some 0x204 := by
  decide
/-- V41.19 -/
theorem test_skipIfVxNeVy_falls :
    (run (withRegs [(0x1, 0x07), (0x2, 0x07)]) 0x9120).map (fun t => t.pc) = some 0x202 := by
  decide
/-- V41.22 -/
theorem test_jumpPlusV0_largest : (run (withRegs [(0x0, 0xFF)]) 0xBFFF).map (fun t => t.pc) = some 0x10FE := by decide
/-- V41.23 -/
theorem test_jumpPlusV0_uses_V0 :
    (run (withRegs [(0x0, 0x01), (0x5, 0x40)]) 0xB500).map (fun t => t.pc) = some 0x501 := by
  decide
/-- V42.1 -/
theorem test_loadImmediate : (run loaded 0x6133).map (fun t => (t.reg 1, t.pc)) = some (0x33, 0x202) := by decide
/-- V42.4, with VF set -/
theorem test_addImmediate_no_flag :
    (run (withRegs [(0x1, 0xFF), (0xF, 0x07)]) 0x7101).map (fun t => (t.reg 1, t.reg vf)) = some (0x00, 0x07) := by
  decide
/-- V42.6 -/
theorem test_move :
    (run (withRegs [(0x2, 0x5A)]) 0x8120).map (fun t => (t.reg 1, t.reg 2)) = some (0x5A, 0x5A) := by
  decide
/-- V42.7 -/
theorem test_or :
    (run (withRegs [(0x1, 0x0F), (0x2, 0xF0), (0xF, 0x05)]) 0x8121).map (fun t => (t.reg 1, t.reg vf)) =
      some (0xFF, 0x05) := by
  decide
/-- V42.8 -/
theorem test_and :
    (run (withRegs [(0x1, 0x3C), (0x2, 0x0F), (0xF, 0x05)]) 0x8122).map (fun t => (t.reg 1, t.reg vf)) =
      some (0x0C, 0x05) := by
  decide
/-- V42.9 -/
theorem test_xor :
    (run (withRegs [(0x1, 0x3C), (0x2, 0x0F), (0xF, 0x05)]) 0x8123).map (fun t => (t.reg 1, t.reg vf)) =
      some (0x33, 0x05) := by
  decide
/-- V42.13 -/
theorem test_add_carry :
    (run (withRegs [(0x1, 0xFF), (0x2, 0x01)]) 0x8124).map (fun t => (t.reg 1, t.reg vf)) = some (0x00, 0x01) := by
  decide
/-- V42.15 -/
theorem test_add_to_vf :
    (run (withRegs [(0xF, 0xF0), (0x1, 0x20)]) 0x8F14).map (fun t => t.reg vf) = some 0x01 := by
  decide
/-- V42.19 -/
theorem test_subXY_borrow :
    (run (withRegs [(0x1, 0x03), (0x2, 0x05)]) 0x8125).map (fun t => (t.reg 1, t.reg vf)) = some (0xFE, 0x00) := by
  decide
/-- V42.20 -/
theorem test_subXY_tie :
    (run (withRegs [(0x1, 0x07), (0x2, 0x07), (0xF, 0x01)]) 0x8125).map (fun t => (t.reg 1, t.reg vf)) =
      some (0x00, 0x00) := by
  decide
/-- V42.25 -/
theorem test_shiftRight_ignores_y :
    (run (withRegs [(0x1, 0x01), (0x7, 0xFF)]) 0x8176).map (fun t => (t.reg 1, t.reg vf)) = some (0x00, 0x01) := by
  decide
/-- V42.26 -/
theorem test_shiftRight_vf : (run (withRegs [(0xF, 0x03)]) 0x8FF6).map (fun t => t.reg vf) = some 0x00 := by decide
/-- V42.27 -/
theorem test_subYX :
    (run (withRegs [(0x1, 0x03), (0x2, 0x05)]) 0x8127).map (fun t => (t.reg 1, t.reg vf)) = some (0x02, 0x01) := by
  decide
/-- V42.28 -/
theorem test_subYX_borrow :
    (run (withRegs [(0x1, 0x05), (0x2, 0x03)]) 0x8127).map (fun t => (t.reg 1, t.reg vf)) = some (0xFE, 0x00) := by
  decide
/-- V42.30 -/
theorem test_shiftLeft :
    (run (withRegs [(0x1, 0x81)]) 0x810E).map (fun t => (t.reg 1, t.reg vf)) = some (0x02, 0x01) := by
  decide
/-- V42.33 -/
theorem test_shiftLeft_vf : (run (withRegs [(0xF, 0x81)]) 0x8FFE).map (fun t => t.reg vf) = some 0x02 := by decide
/-- V42.36: any draw masked with 0 -/
theorem test_random_mask_zero (s t : State) (h : exec (.random 3 0x00) s = .next t) : t.reg 3 = 0 := by
  rw [exec_random] at h
  cases h
  simp
/-- V42.35, the fields that are not the draw -/
theorem test_random_counts_its_draw :
    (run loaded 0xC30F).map (fun t => (t.draws, t.pc)) = some (1, 0x202) := by
  decide
/-- V43.2 -/
theorem test_setI : (run loaded 0xAFFF).map (fun t => (t.i, t.pc)) = some (0xFFF, 0x202) := by decide
/-- V43.4 -/
theorem test_addToI_no_carry_at_12_bits :
    (run ({ withRegs [(0x2, 0x01), (0xF, 0x07)] with i := 0xFFF } : State) 0xF21E).map (fun t =>
      (t.i, t.reg vf)) =
      some (0x1000, 0x07) := by
  decide
/-- V43.5 -/
theorem test_addToI_carry :
    (run ({ withRegs [(0x2, 0x20)] with i := 0xFFF0 } : State) 0xF21E).map (fun t => (t.i, t.reg vf)) =
      some (0x010, 0x01) := by
  decide
/-- V43.9 -/
theorem test_loadFontAddress : (run (withRegs [(0x4, 0x0F)]) 0xF429).map (fun t => t.i) = some 0x04B := by decide
/-- V43.10 -/
theorem test_loadFontAddress_low_nibble :
    (run (withRegs [(0x4, 0x1A)]) 0xF429).map (fun t => t.i) = some 0x032 := by
  decide
/-- V43.11 -/
theorem test_storeBCD :
    (run ({ withRegs [(0x1, 0x7B)] with i := 0x300 } : State) 0xF133).map (fun t =>
      t.bytes 0x300 3) =
      some [1, 2, 3] := by
  decide
/-- V43.15 -/
theorem test_storeBCD_past_memory :
    (run ({ withRegs [(0x1, 0x09)] with i := 0xFFD } : State) 0xF133).map (fun t =>
      (outcome t, t.bytes 0xFFD 2)) =
      some ((.halted, 6, 0x200), [0, 0]) := by
  decide
/-- V43.16 -/
theorem test_storeRegisters :
    (run ({ withRegs [(0x0, 0x01), (0x1, 0x02)] with i := 0x300 } : State) 0xF155).map (fun t =>
      (t.bytes 0x300 3, t.i)) =
      some ([1, 2, 0], 0x302) := by
  decide
/-- V43.18 -/
theorem test_storeRegisters_past_memory :
    (run ({ withRegs [(0x0, 0x01), (0x1, 0x02)] with i := 0xFFE } : State) 0xF155).map (fun t =>
      (outcome t, t.byte 0xFFE)) =
      some ((.halted, 6, 0x200), 0) := by
  decide
/-- V43.20 -/
theorem test_loadRegisters :
    (run ({ loaded with i := 0x300, mem := [(0x300, 1), (0x301, 2), (0x302, 3)] } : State) 0xF265).map (fun t =>
      (t.reg 0, t.reg 1, t.reg 2, t.reg 3, t.i)) =
      some (1, 2, 3, 0, 0x303) := by
  decide
/-- V43.23 -/
theorem test_loadRegisters_past_memory :
    (run ({ loaded with i := 0x1000 } : State) 0xF065).map (fun t => outcome t) = some (.halted, 6, 0x200) := by
  decide
/-- V44.1 -/
theorem test_clearScreen :
    (run (withRow (withRow loaded 0 0xFFFFFFFFFFFFFFFF) 31 1) 0x00E0).map (fun t =>
      (t.fbRead 0, t.fbRead 31, t.redrawPending, t.reg vf)) =
      some (0, 0, true, 0) := by
  decide
/-- V44.5 -/
theorem test_draw_wraps_columns :
    (run ({ withRegs [(0x0, 0x3C)] with i := 0x300, mem := [(0x300, 0xFF)] } : State) 0xD011).map (fun t =>
      (t.fbRead 0, t.reg vf, t.redrawPending)) =
      some (0xF00000000000000F, 0, true) := by
  decide
/-- V44.9 -/
theorem test_draw_collides :
    (run (withRow ({ withRegs [(0x0, 0x03)] with i := 0x300, mem := [(0x300, 0x80)] } : State) 0 0x1000000000000000) 0xD011).map (fun t =>
      (t.fbRead 0, t.reg vf)) =
      some (0, 1) := by
  decide
/-- V45.1 -/
theorem test_loadDelayTimer :
    (run ({ loaded with dt := 0x20 } : State) 0xF307).map (fun t => (t.reg 3, t.dt)) = some (0x20, 0x1F) := by
  decide
/-- V45.3 -/
theorem test_setDelayTimer : (run (withRegs [(0x2, 0x05)]) 0xF215).map (fun t => t.dt) = some 0x04 := by decide
/-- V45.5 -/
theorem test_setSoundTimer :
    (run (withRegs [(0x2, 0x0A)]) 0xF218).map (fun t => (t.st, t.soundActive)) = some (0x09, true) := by
  decide
/-- V45.6 -/
theorem test_setSoundTimer_one :
    (run (withRegs [(0x2, 0x01)]) 0xF218).map (fun t => (t.st, t.soundActive)) = some (0x00, false) := by
  decide
/-- V45.8 -/
theorem test_skipIfKeyDown_held :
    (run ({ withRegs [(0x1, 0x0A)] with keysDown := 0x0400 } : State) 0xE19E).map (fun t => t.pc) = some 0x204 := by
  decide
/-- V45.10 -/
theorem test_skipIfKeyDown_no_key_16 :
    (run ({ withRegs [(0x1, 0x10)] with keysDown := 0xFFFF } : State) 0xE19E).map (fun t => t.pc) = some 0x202 := by
  decide
/-- V45.11 -/
theorem test_skipIfKeyUp_free : (run (withRegs [(0x1, 0x0A)]) 0xE1A1).map (fun t => t.pc) = some 0x204 := by decide
/-- V45.12 -/
theorem test_skipIfKeyUp_held :
    (run ({ withRegs [(0x1, 0x0A)] with keysDown := 0x0400 } : State) 0xE1A1).map (fun t => t.pc) = some 0x202 := by
  decide
/-- V45.14 -/
theorem test_waitKey_enters :
    (run ({ loaded with pc := 0x210, dt := 0x05 } : State) 0xF30A).map (fun t =>
      (outcome t, t.waitReg, t.dt, t.stepDone)) =
      some ((.waitKey, 0, 0x210), 3, 0x05, true) := by
  decide

/-! The loop and the host -/

/-- V40.1 -/
theorem test_undefined_opcode :
    (run ({ loaded with dt := 0x02 } : State) 0x0000).map (fun t => (t.pc, t.dt, t.diag, t.undefSeen)) =
      some (0x202, 0x01, some ⟨0x0000, 0x200⟩, true) := by
  decide
/-- V40.7 -/
theorem test_odd_pc :
    (run ({ loaded with pc := 0x201 } : State) 0x6012).map (fun t => (t.reg 0, t.pc)) = some (0x12, 0x203) := by
  decide
/-- V40.5 -/
theorem test_fetch_past_memory :
    (play { loaded with pc := 0xFFE, dt := 2 } .quiet).map (fun t => (outcome t, t.dt, t.stepDone)) =
      some ((.halted, 6, 0xFFE), 2, false) := by
  decide

/-- M2's waiting state. -/
def waiting : State := { loaded with status := .waitKey, waitReg := 3, pc := 0x210, dt := 5, st := 2 }

/-- M2, the last row -/
theorem test_wait_completes :
    (play waiting (.keyRelease 0x0030)).map (fun t => (outcome t, t.reg 3, t.dt, t.st)) =
      some ((.run, 0, 0x212), 4, 4, 1) := by
  decide
/-- M2, the zero mask -/
theorem test_wait_ignores_zero_mask :
    (play waiting (.keyRelease 0)).map (fun t => (outcome t, t.dt)) = some ((.waitKey, 0, 0x210), 5) := by
  decide
/-- M2: the timers stand still during the wait -/
theorem test_wait_freezes_timers :
    (play waiting .quiet).map (fun t => (outcome t, t.dt, t.st)) = some ((.waitKey, 0, 0x210), 5, 2) := by
  decide

/-- M5, with a program of one instruction in the place of the full blob -/
theorem test_load :
    (play State.reset (.load [0x61, 0x33])).map (fun t => (outcome t, t.bytes 0x200 3, t.loadError)) =
      some ((.run, 0, 0x200), [0x61, 0x33, 0], false) := by
  decide
/-- M5, S8: one byte too many changes nothing but `load_error` -/
theorem test_load_too_large (blob : List Byte) (h : blob.length = 3584) :
    State.reset.loadProgram blob = { State.reset with loadError := true } :=
  if_pos (by rw [h]; decide)
/-- M7, the first row, and M5's IDLE -/
theorem test_reset_leaves_halted :
    (play { loaded with status := .halted, error := 6, pc := 0x202 } .reset).map (fun t => (outcome t, t.hostStatus)) =
      some ((.idle, 0, 0x200), 0x0000) := by
  decide
/-- M7, the other rows -/
theorem test_hostStatus_wait : ({ waiting with st := 4 } : State).hostStatus = 0x0342 := by decide
theorem test_hostStatus_draw : ({ loaded with redrawPending := true } : State).hostStatus = 0x0021 := by decide
theorem test_hostStatus_overflow : ({ loaded with status := .halted, error := 3 } : State).hostStatus = 0x000F := by decide
theorem test_hostStatus_range : ({ loaded with status := .halted, error := 6 } : State).hostStatus = 0x001B := by decide
/-- M4, after step 3 -/
theorem test_hostStatus_undefined : ({ loaded with undefSeen := true } : State).hostStatus = 0x0081 := by decide

/-- R48 and R33: the first bytes of glyphs 0 and F, and the byte after the font -/
theorem test_font :
    State.reset.bytes 0 5 = [0xF0, 0x90, 0x90, 0x90, 0xF0] ∧
      State.reset.bytes 75 6 = [0xF0, 0x80, 0xF0, 0x80, 0x80, 0] := by
  decide
/-- FONT_BASE and FONT_DATA are arguments (93 U13): another font at another base reads back there, 0 elsewhere, and a
store overwrites it (R31, R32). -/
def otherFont : State :=
  { loaded with params := { Params.spec with fontBase := 0x050, fontData := Vector.replicate 80 0xA5 } }
theorem test_font_arguments :
    otherFont.bytes 0x04F 2 = [0, 0xA5] ∧ otherFont.bytes 0x09F 2 = [0xA5, 0] ∧
      (run { otherFont with i := 0x050 } 0xF055).map (fun t => t.bytes 0x04F 3) = some [0, 0, 0xA5] := by
  decide
/-- R47, D29: a Load does not break into the running loop. The loop takes its step (the no-op at 0x200) and the move stays
next; with the loop stopped it is taken. -/
theorem test_load_waits_for_the_loop :
    (play loaded (.load [0x61])).map (fun t => (t.pc, t.stepDone, t.script)) = some (0x202, true, [.load [0x61]]) ∧
      (play { loaded with runEnable := false } (.load [0x61])).map (fun t => (t.bytes 0x200 1, t.script)) =
        some ([0x61], []) := by
  decide
/-- The canonical form of memory: a write of what the byte reads as unlisted takes its entry out. -/
theorem test_memory_canonical :
    Memory.write Params.spec (Memory.write Params.spec [] 0x300 7) 0x300 0 = [] ∧ Memory.write Params.spec [] 0 0xF0 = [] ∧
      Memory.write Params.spec (Memory.write Params.spec [] 0x301 7) 0x300 9 = [(0x300, 9), (0x301, 7)] := by
  decide
/-- The core of the host runs the machine: from reset the block is idle. -/
theorem test_core_idle : (Host.Core.run core 1 core.reset) = .next State.reset := rfl
/-! Witnesses: for every obligation with hypotheses, states and operands that meet all of them together, one for each
clause -/

/-- The loaded state with an opcode at PC. -/
def at200 (op : Nat) : State := loaded.withFetchWord 16 op

/-- The state in which the host's next move is this one. -/
def host (s : State) (m : HostMove) : State := { s with script := [m] }

theorem witness_steps : Steps (at200 0x6133) := ⟨rfl, rfl, rfl⟩
theorem witness_fetches : Fetches (at200 0x6133) 0x6133 := ⟨by decide, by decide⟩
/-- The last address a fetch may stand at. -/
theorem witness_fetches_boundary : Fetches (({ loaded with pc := 0xFFD } : State).withFetchWord 16 0x6133) 0x6133 :=
  ⟨by decide, by decide⟩

theorem witness_EncodeOfDecodeIsIdentity : decode 0xFF65 = .ok (.loadRegisters 0xF) := by decide
theorem witness_EveryOpcodeFitsAtMostOneRow :
    (⟨"Return", 0x00EE, 0xFFFF⟩ ∈ opcodeTable ∧ OpcodeRow.fits ⟨"Return", 0x00EE, 0xFFFF⟩ 0x00EE = true) ∧
      decode 0x00EE = .ok .ret ∧ decode 0x00EF = .error .undefinedGroup0 := by
  decide
theorem witness_ShiftIgnoresItsYField : State.reset.params.shiftSrc = .vx := rfl

/-- `StepRunsTheDecodedInstruction`: the three ends of a step. -/
theorem witness_StepRuns_completes :
    Steps (at200 0x6133) ∧ Fetches (at200 0x6133) 0x6133 ∧ decode 0x6133 = .ok (.loadImmediate 1 0x33) ∧
      ∃ t, exec (.loadImmediate 1 0x33) (at200 0x6133).atInstant = .next t ∧ t.status = .run :=
  ⟨⟨rfl, rfl, rfl⟩, ⟨by decide, by decide⟩, by decide, _, rfl, rfl⟩
theorem witness_StepRuns_waits :
    Steps (at200 0xF30A) ∧ Fetches (at200 0xF30A) 0xF30A ∧ decode 0xF30A = .ok (.waitKey 3) ∧
      ∃ t, exec (.waitKey 3) (at200 0xF30A).atInstant = .next t ∧ t.status = .waitKey :=
  ⟨⟨rfl, rfl, rfl⟩, ⟨by decide, by decide⟩, by decide, _, rfl, rfl⟩
theorem witness_StepRuns_halts :
    Steps (at200 0x00EE) ∧ Fetches (at200 0x00EE) 0x00EE ∧ decode 0x00EE = .ok .ret ∧
      ∃ t, exec .ret (at200 0x00EE).atInstant = .next t ∧ t.status = .halted :=
  ⟨⟨rfl, rfl, rfl⟩, ⟨by decide, by decide⟩, by decide, _, rfl, rfl⟩

/-- The other arguments of 93 Part 3. -/
def external : State := { loaded with params := { Params.spec with timerMode := .externalTick } }

theorem witness_PerStepTickCountsTimersDown : loaded.params.timerMode = .perStep ∧ loaded.dt = 0 := ⟨rfl, rfl⟩
theorem witness_ExternalTick_strobe :
    external.params.timerMode = .externalTick ∧ (nextMove (host external .tick)).1 = .tick ∧
      (host external .tick).params.timerMode = .externalTick ∧ (host external .tick).status = .run :=
  ⟨rfl, rfl, rfl, rfl⟩
theorem witness_ExternalTick_strobe_waiting :
    (host { external with status := .waitKey } .tick).params.timerMode = .externalTick ∧
      (host { external with status := .waitKey } .tick).status = .waitKey :=
  ⟨rfl, rfl⟩
theorem witness_ExternalTick_ignored :
    (nextMove (host loaded .tick)).1 = .tick ∧ (host loaded .tick).params.timerMode = .perStep := ⟨rfl, rfl⟩
theorem witness_ExternalTick_idle :
    (nextMove (host { external with status := .idle } .tick)).1 = .tick ∧
      (host { external with status := .idle } .tick).status = .idle :=
  ⟨rfl, rfl⟩

theorem witness_FetchOutsideMemory_boundary :
    Steps { loaded with pc := 0xFFE } ∧ 0xFFE ≤ ({ loaded with pc := 0xFFE } : State).pc.toNat :=
  ⟨⟨rfl, rfl, rfl⟩, by decide⟩
theorem witness_FetchInsideMemory_boundary : ({ loaded with pc := 0xFFD } : State).pc.toNat < 0xFFE := by decide
theorem witness_UndefinedOpcode :
    Steps (at200 0x8128) ∧ Fetches (at200 0x8128) 0x8128 ∧ decode 0x8128 = .error .undefinedGroup8 :=
  ⟨⟨rfl, rfl, rfl⟩, ⟨by decide, by decide⟩, by decide⟩
theorem witness_NoStep_status : Quiet State.reset ∧ State.reset.status ≠ .run := ⟨rfl, by decide⟩
theorem witness_NoStep_disabled :
    Quiet { loaded with runEnable := false } ∧ ({ loaded with runEnable := false } : State).runEnable = false := ⟨rfl, rfl⟩
theorem witness_NoStep_release :
    (nextMove (host { waiting with runEnable := false } (.keyRelease 0x0030))).1 = .keyRelease 0x0030 ∧
      (host { waiting with runEnable := false } (.keyRelease 0x0030)).runEnable = false :=
  ⟨rfl, rfl⟩
theorem witness_NoStep_runEnable : (nextMove (host loaded (.setRunEnable false))).1 = .setRunEnable false := rfl
theorem witness_NoStep_keysDown : (nextMove (host waiting (.setKeysDown 0x8001))).1 = .setKeysDown 0x8001 := rfl

/-- `StatusMovesOnlyAsTheTableSays`: a step, a load of each kind, a completed wait. -/
theorem witness_StatusMoves_quiet : ∃ u, step (at200 0xF30A) = .next u ∧ u.status = .waitKey := ⟨_, rfl, rfl⟩
theorem witness_StatusMoves_halt : ∃ u, step (at200 0x00EE) = .next u ∧ u.status = .halted := ⟨_, rfl, rfl⟩
theorem witness_StatusMoves_reset : ∃ u, step (host loaded .reset) = .next u := ⟨_, rfl⟩
theorem witness_StatusMoves_load :
    (nextMove (host State.reset (.load [0x12, 0x00]))).1 = .load [0x12, 0x00] ∧
      [(0x12 : Byte), 0x00].length ≤ 3583 ∧ ∃ u, step (host State.reset (.load [0x12, 0x00])) = .next u :=
  ⟨rfl, by decide, _, rfl⟩
theorem witness_StatusMoves_release : ∃ u, step (host waiting (.keyRelease 0x8000)) = .next u := ⟨_, rfl⟩
theorem witness_StatusMoves_other : ∃ u, step (host loaded (.setKeysDown 1)) = .next u := ⟨_, rfl⟩

theorem witness_IdleAndHalted_idle : State.reset.status = .idle ∧ ∃ u, step State.reset = .next u := ⟨rfl, _, rfl⟩
theorem witness_IdleAndHalted_halted :
    (host { loaded with status := .halted, error := 3 } .frameAck).status = .halted ∧
      ∃ u, step (host { loaded with status := .halted, error := 3 } .frameAck) = .next u :=
  ⟨rfl, _, rfl⟩
theorem witness_IdleAndHalted_levels :
    (∀ level, (nextMove (host State.reset (.setKeysDown 1))).1 ≠ .setRunEnable level) ∧
      (∀ mask, (nextMove (host State.reset (.setRunEnable true))).1 ≠ .setKeysDown mask) ∧
      (∀ blob, (nextMove (host State.reset (.setKeysDown 1))).1 ≠ .load blob) ∧
      ∃ u, step (host State.reset (.setKeysDown 1)) = .next u ∧ u.keysDown = 1 :=
  ⟨nofun, nofun, nofun, _, rfl, rfl⟩
theorem witness_ResetRestores : (nextMove (host waiting .reset)).1 = .reset := rfl
/-- Both sides of the size check, at its boundary. -/
theorem witness_LoadRunsItsProgram :
    (nextMove (host waiting (.load (List.replicate 3583 0x12)))).1 = .load (List.replicate 3583 0x12) ∧
      (List.replicate 3583 (0x12 : Byte)).length ≤ 3583 :=
  ⟨rfl, Nat.le_of_eq List.length_replicate⟩
theorem witness_Load_waits :
    (host loaded (.load [0x12, 0x00])).script = [.load [0x12, 0x00]] ∧ (host loaded (.load [0x12, 0x00])).status = .run ∧
      (host loaded (.load [0x12, 0x00])).runEnable = true :=
  ⟨rfl, rfl, rfl⟩
theorem witness_Load_taken_stopped :
    (host { loaded with runEnable := false } (.load [0x12, 0x00])).script = [.load [0x12, 0x00]] ∧
      ¬((host { loaded with runEnable := false } (.load [0x12, 0x00])).status = .run ∧
        (host { loaded with runEnable := false } (.load [0x12, 0x00])).runEnable = true) := by
  decide
theorem witness_OversizedLoad :
    (nextMove (host waiting (.load (List.replicate 3584 0x12)))).1 = .load (List.replicate 3584 0x12) ∧
      3583 < (List.replicate 3584 (0x12 : Byte)).length :=
  ⟨rfl, Nat.lt_of_lt_of_eq (by decide) List.length_replicate.symm⟩
theorem witness_KeyRelease_completes :
    (nextMove (host waiting (.keyRelease 0x8000))).1 = .keyRelease 0x8000 ∧
      (host waiting (.keyRelease 0x8000)).status = .waitKey ∧ (host waiting (.keyRelease 0x8000)).runEnable = true ∧
      (0x8000 : Word) ≠ 0 :=
  ⟨rfl, rfl, rfl, by decide⟩
theorem witness_NoStep_dropped :
    (nextMove (host loaded (.keyRelease 0x8000))).1 = .keyRelease 0x8000 ∧
      (host loaded (.keyRelease 0x8000)).status ≠ .waitKey :=
  ⟨rfl, by decide⟩
theorem witness_KeyRelease_leaves :
    (host waiting .reset).status = .waitKey ∧ ∃ u, step (host waiting .reset) = .next u ∧ u.status ≠ .waitKey :=
  ⟨rfl, _, rfl, by decide⟩
theorem witness_KeyRelease_zero : (nextMove (host waiting (.keyRelease 0))).1 = .keyRelease 0 := rfl

/-- A loaded state with the redraw level up. -/
def drawn : State := { loaded with redrawPending := true }

theorem witness_RedrawPending_falls :
    ∃ u, step (host drawn .frameAck) = .next u ∧ drawn.redrawPending = true ∧ u.redrawPending = false := ⟨_, rfl, rfl, rfl⟩
theorem witness_RedrawPending_ack :
    (nextMove (host drawn .frameAck)).1 = .frameAck ∧ (host drawn .frameAck).status = .run := ⟨rfl, rfl⟩
theorem witness_RedrawPending_ack_waiting :
    (nextMove (host waiting .frameAck)).1 = .frameAck ∧ (host waiting .frameAck).status = .waitKey := ⟨rfl, rfl⟩
theorem witness_HostStatus_write :
    (nextMove (host loaded (.writeHostStatus 0xFFFF))).1 = .writeHostStatus 0xFFFF := rfl
theorem witness_UndefSeen_rises :
    (at200 0x8128).undefSeen = false ∧ ∃ u, step (at200 0x8128) = .next u ∧ u.undefSeen = true := ⟨rfl, _, rfl, rfl⟩
theorem witness_UndefSeen_set :
    Steps (at200 0x8128) ∧ Fetches (at200 0x8128) 0x8128 ∧ decode 0x8128 = .error .undefinedGroup8 ∧
      ∃ u, step (at200 0x8128) = .next u :=
  ⟨⟨rfl, rfl, rfl⟩, ⟨by decide, by decide⟩, by decide, _, rfl⟩
theorem witness_UndefSeen_falls :
    (host { loaded with undefSeen := true } .reset).undefSeen = true ∧
      ∃ u, step (host { loaded with undefSeen := true } .reset) = .next u ∧ u.undefSeen = false :=
  ⟨rfl, _, rfl, rfl⟩

theorem witness_Inv_reset : State.reset.Inv where
  memWf := by decide
  pcReach := by decide
  returns := fun k hk => absurd hk (Nat.not_lt_zero _)
  waitPc := by decide
  haltedError := by decide
  errorCode := by decide
/-- The invariant holds of a state with one live return address at its boundary, that steps. -/
theorem witness_EveryStepKeepsTheInvariant :
    State.Inv { loaded with sp := 1, stack := loaded.stack.set 0 0xFFD, pc := 0x10FE } ∧
      ∃ u, step { loaded with sp := 1, stack := loaded.stack.set 0 0xFFD, pc := 0x10FE } = .next u :=
  ⟨{ memWf := by decide
     pcReach := by decide
     returns := by decide
     waitPc := by decide
     haltedError := by decide
     errorCode := by decide }, _, rfl⟩
theorem witness_Inv_waiting : State.Inv { waiting with pc := 0xFFD } where
  memWf := by decide
  pcReach := by decide
  returns := fun k hk => absurd hk (Nat.not_lt_zero _)
  waitPc := by decide
  haltedError := by decide
  errorCode := by decide
theorem witness_NoStepChangesTheArguments : ∃ u, step external = .next u := ⟨_, rfl⟩
theorem witness_FatalConditionsArePrecise :
    Steps (at200 0x00EE) ∧ ∃ u, step (at200 0x00EE) = .next u ∧ u.status = .halted := ⟨⟨rfl, rfl, rfl⟩, _, rfl, rfl⟩
/-- Two states that differ in the entry just above SP. -/
theorem witness_DeadStackEntriesAreUnobservable :
    SameButDeadStack { loaded with sp := 1 } { loaded with sp := 1, stack := loaded.stack.set 1 0x204 } ∧
      (∃ u, step { loaded with sp := 1 } = .next u) ∧
      ∃ u, step { loaded with sp := 1, stack := loaded.stack.set 1 0x204 } = .next u :=
  ⟨⟨rfl, by decide⟩, ⟨_, rfl⟩, ⟨_, rfl⟩⟩

/-- The frame: an instruction that raises, and one that does not. -/
theorem witness_Frame_raises : Instr.RaisesIn .ret loaded ∧ ∃ t, exec .ret loaded = .next t := ⟨rfl, _, rfl⟩
theorem witness_Frame_completes :
    ¬Instr.RaisesIn (.storeBCD 1) { loaded with i := 0xFFC } ∧
      ∃ t, exec (.storeBCD 1) { loaded with i := 0xFFC } = .next t :=
  ⟨fun h => absurd h.2 (by decide), _, rfl⟩
theorem witness_StoresStayInside : ∃ t, exec (.storeRegisters 1) { loaded with i := 0xFFD } = .next t := ⟨_, rfl⟩
theorem witness_AccessPastMemory_draw :
    0 < Instr.bytesMoved (.draw 0 1 2) ∧
      0xFFE < ({ loaded with i := 0xFFE } : State).i.toNat + Instr.bytesMoved (.draw 0 1 2) - 1 := by
  decide
theorem witness_AccessPastMemory_bcd :
    0 < Instr.bytesMoved (.storeBCD 1) ∧
      0xFFE < ({ loaded with i := 0xFFD } : State).i.toNat + Instr.bytesMoved (.storeBCD 1) - 1 := by
  decide
theorem witness_AccessPastMemory_store :
    0 < Instr.bytesMoved (.storeRegisters 1) ∧
      0xFFE < ({ loaded with i := 0xFFE } : State).i.toNat + Instr.bytesMoved (.storeRegisters 1) - 1 := by
  decide
theorem witness_AccessPastMemory_load :
    0 < Instr.bytesMoved (.loadRegisters 0) ∧
      0xFFE < ({ loaded with i := 0xFFFF } : State).i.toNat + Instr.bytesMoved (.loadRegisters 0) - 1 := by
  decide

theorem witness_Call_room : ({ loaded with sp := 15 } : State).sp.val < 16 := by decide
theorem witness_Call_full : ({ loaded with sp := 16 } : State).sp.val = 16 := rfl
theorem witness_Return_deepest : ({ loaded with sp := 16 } : State).sp.val = (15 : Fin 16).val + 1 := rfl
theorem witness_Return_empty : loaded.sp.val = 0 := rfl
theorem witness_CallThenReturn :
    ({ loaded with sp := 15 } : State).sp.val < 16 ∧ ∃ t, exec (.call 0x340) { loaded with sp := 15 } = .next t :=
  ⟨by decide, _, rfl⟩

/-- The arguments of the readings the defaults do not take. -/
def otherParams : Params :=
  { Params.spec with
    digitMap := .unmasked, shiftXf := .captured, fx1eVf := .clear, subTieVf := .one, keyIndexMap := .lowNibble }
def other : State := { loaded with params := otherParams }

theorem witness_Add_destination : (1 : Reg) ≠ vf := by decide
theorem witness_Subtractions : loaded.params.subTieVf = .zero ∧ other.params.subTieVf = .one := ⟨rfl, rfl⟩
theorem witness_Shifts :
    loaded.params.shiftSrc = .vx ∧ loaded.params.shiftXf = .sequential ∧ (1 : Reg) ≠ vf ∧ (0xF : Reg) = vf := by
  decide
theorem witness_OtherShifts_captured : other.params.shiftSrc = .vx ∧ other.params.shiftXf = .captured := ⟨rfl, rfl⟩
/-- SHIFT_SRC = VY under each value of SHIFT_XF, with x = F, y = F and neither. -/
theorem witness_OtherShifts_vy :
    ({ loaded with params := { Params.spec with shiftSrc := .vy } } : State).params.shiftSrc = .vy ∧
      ({ loaded with params := { Params.spec with shiftSrc := .vy } } : State).params.shiftXf = .sequential ∧
      ({ loaded with params := { otherParams with shiftSrc := .vy } } : State).params.shiftSrc = .vy ∧
      ({ loaded with params := { otherParams with shiftSrc := .vy } } : State).params.shiftXf = .captured ∧
      (0xF : Reg) = vf ∧ (1 : Reg) ≠ vf := by
  decide
/-- Both sides of the 16-bit carry, at its boundary. -/
theorem witness_AddToI_carry :
    0xFFFF < (0xFF01 : Word).toNat + (0xFF : Byte).toNat ∧ (0xFF00 : Word).toNat + (0xFF : Byte).toNat ≤ 0xFFFF := by
  decide
theorem witness_AddToI_readings : loaded.params.fx1eVf = .unchanged ∧ other.params.fx1eVf = .clear := ⟨rfl, rfl⟩
theorem witness_FontAddress :
    loaded.params.digitMap = .lowNibble ∧ other.params.digitMap = .unmasked ∧
      ({ loaded with params := { Params.spec with digitMap := .anyMap } } : State).params.digitMap = .anyMap :=
  ⟨rfl, rfl, rfl⟩
theorem witness_StoreBcd_boundary :
    Memory.wf Params.spec ({ loaded with i := 0xFFC } : State).mem ∧ ({ loaded with i := 0xFFC } : State).i.toNat + 2 ≤ 0xFFE := by
  decide
theorem witness_StoreBcd_outside : 0xFFE < ({ loaded with i := 0xFFD } : State).i.toNat + 2 := by decide
theorem witness_StoreRegisters_boundary :
    Memory.wf Params.spec ({ loaded with i := 0xFFD } : State).mem ∧
      ({ loaded with i := 0xFFD } : State).i.toNat + (1 : Reg).toNat ≤ 0xFFE := by
  decide
theorem witness_StoreRegisters_outside :
    0xFFE < ({ loaded with i := 0xFFE } : State).i.toNat + (1 : Reg).toNat := by decide
theorem witness_LoadRegisters_boundary :
    ({ loaded with i := 0xFEF } : State).i.toNat + (0xF : Reg).toNat ≤ 0xFFE := by decide
theorem witness_LoadRegisters_outside :
    0xFFE < ({ loaded with i := 0xFFF } : State).i.toNat + (0 : Reg).toNat := by decide
theorem witness_StoreThenLoad :
    Memory.wf Params.spec ({ loaded with i := 0xFFD } : State).mem ∧
      ({ loaded with i := 0xFFD } : State).i.toNat + (1 : Reg).toNat ≤ 0xFFE ∧
      ∃ t, exec (.storeRegisters 1) { loaded with i := 0xFFD } = .next t :=
  ⟨by decide, by decide, _, rfl⟩
/-- A loaded state with I at the opcode after the one at PC. -/
def nextToPc : State := { loaded with i := 0x202 }

theorem witness_NextFetchSeesTheStore :
    Memory.wf Params.spec nextToPc.mem ∧ nextToPc.i.toNat + max 1 (2 : Reg).toNat ≤ 0xFFE ∧
      nextToPc.i.toNat = nextToPc.pc.toNat + 2 ∧ ∃ t, exec (.storeRegisters 2) nextToPc = .next t :=
  ⟨by decide, by decide, by decide, _, rfl⟩
theorem witness_NextFetch_one_byte :
    nextToPc.i.toNat + max 1 (0 : Reg).toNat ≤ 0xFFE ∧ ∃ t, exec (.storeRegisters 0) nextToPc = .next t :=
  ⟨by decide, _, rfl⟩
theorem witness_NextFetch_bcd :
    nextToPc.i.toNat + 2 ≤ 0xFFE ∧ nextToPc.i.toNat = nextToPc.pc.toNat + 2 ∧
      ∃ t, exec (.storeBCD 1) nextToPc = .next t :=
  ⟨by decide, by decide, _, rfl⟩

theorem witness_Place_leftmost : (0 : Nat) < 64 ∧ (63 : Nat) < 64 := by decide
theorem witness_Draw_inside :
    ({ loaded with i := 0xFFE } : State).i.toNat + (1 : RowCount).toNat - 1 ≤ 0xFFE ∧
      (0 : RowCount) = 0 := by
  decide
theorem witness_Draw_outside :
    (2 : RowCount) ≠ 0 ∧ 0xFFE < ({ loaded with i := 0xFFE } : State).i.toNat + (2 : RowCount).toNat - 1 := by
  decide
theorem witness_DrawingTwice :
    (0 : Reg) ≠ vf ∧ (1 : Reg) ≠ vf ∧ loaded.i.toNat + (5 : RowCount).toNat - 1 ≤ 0xFFE ∧
      ∃ t, exec (.draw 0 1 5) loaded = .next t :=
  ⟨by decide, by decide, by decide, _, rfl⟩

theorem witness_TimerWrite :
    Steps (at200 0xF215) ∧ Fetches (at200 0xF215) 0xF215 ∧ (at200 0xF215).params.timerMode = .perStep ∧
      decode 0xF215 = .ok (.setDelayTimer 2) :=
  ⟨⟨rfl, rfl, rfl⟩, ⟨by decide, by decide⟩, rfl, by decide⟩
theorem witness_TimerWrite_sound :
    Steps (at200 0xF218) ∧ Fetches (at200 0xF218) 0xF218 ∧ decode 0xF218 = .ok (.setSoundTimer 2) :=
  ⟨⟨rfl, rfl, rfl⟩, ⟨by decide, by decide⟩, by decide⟩
theorem witness_TimerRead :
    Steps (at200 0xF307) ∧ Fetches (at200 0xF307) 0xF307 ∧ decode 0xF307 = .ok (.loadDelayTimer 3) :=
  ⟨⟨rfl, rfl, rfl⟩, ⟨by decide, by decide⟩, by decide⟩
theorem witness_KeySkips : loaded.params.keyIndexMap = .notPressed ∧ other.params.keyIndexMap = .lowNibble := ⟨rfl, rfl⟩
theorem witness_WaitKey :
    Steps (at200 0xF30A) ∧ Fetches (at200 0xF30A) 0xF30A ∧ decode 0xF30A = .ok (.waitKey 3) :=
  ⟨⟨rfl, rfl, rfl⟩, ⟨by decide, by decide⟩, by decide⟩
theorem witness_OwnedState_stack : ∃ t, exec (.call 0x340) loaded = .next t ∧ t.stack ≠ loaded.stack := ⟨_, rfl, by decide⟩
theorem witness_OwnedState : ∃ t, exec (.waitKey 3) loaded = .next t ∧ t.waitReg ≠ loaded.waitReg := ⟨_, rfl, by decide⟩

end Sys2Proof.Tests
end

section
/-! SUPPORT. The frame of every instruction (10_state.md R26, 60_exceptions.md R222), built from one rule for each
operation on the state. -/

namespace Sys2Proof.Machine

/-- Beside the listed parts and the listed V registers, `t` is as `s`. -/
def Frame (parts : List Part) (regs : List Reg) (s t : State) : Prop := Unchanged parts s t ∧ RegsUnchanged regs s t

/-! One rule for each operation on the state, in the form "a frame up to `t` is a frame up to the operation on `t`": what
the operation writes must be listed. For the lists of an instruction that is found by computing them. -/

section Rules

variable {parts : List Part} {regs : List Reg} {s t : State}

theorem Frame.refl : Frame parts regs s s := ⟨Unchanged.refl s parts, RegsUnchanged.refl s regs⟩

theorem Frame.trans {u : State} (h : Frame parts regs s t) (k : Frame parts regs t u) : Frame parts regs s u :=
  ⟨h.1.trans k.1, fun r hr => (k.2 r hr).trans (h.2 r hr)⟩

/-- An operation that writes one listed part and no register. -/
theorem Frame.writePart {u : State} {q : Part} (h : Frame parts regs s t) (hq : q ∈ parts) (hu : Unchanged [q] t u)
    (hv : u.v = t.v) : Frame parts regs s u :=
  h.trans ⟨hu.mono (by simpa using hq), fun r _ => State.reg_congr hv r⟩

theorem Frame.setReg (h : Frame parts regs s t) {x : Reg} {b : Byte} (hx : x ∈ regs := by simp [Instr.regsWritten]) :
    Frame parts regs s (t.setReg x b) := by
  refine h.trans ⟨fun p _ => ?_, fun r hr => t.reg_setReg_other b (ne_of_mem_of_not_mem hx hr).symm⟩
  cases p <;> simp [Part.same]

theorem Frame.setAddIFlag (h : Frame parts regs s t) {o : Bool} (hvf : vf ∈ regs := by simp [Instr.regsWritten]) :
    Frame parts regs s (t.setAddIFlag o) := by
  unfold State.setAddIFlag
  split
  · exact h.setReg hvf
  · split
    · exact h
    · exact h.setReg hvf

theorem Frame.loadRegsUpTo (h : Frame parts regs s t) {x : Reg} (hx : ∀ r : Reg, r.toNat ≤ x.toNat → r ∈ regs) :
    Frame parts regs s (t.loadRegsUpTo x) := by
  refine h.trans ⟨fun p _ => ?_, fun r hr => ?_⟩
  · cases p <;> simp [Part.same]
  · rw [State.reg_loadRegsUpTo, if_neg (mt (hx r) hr)]

theorem Frame.setI (h : Frame parts regs s t) {w : Word} (hi : .i ∈ parts := by simp [Instr.partsWritten]) :
    Frame parts regs s (t.setI w) :=
  h.writePart hi (fun p hp => by cases p <;> simp_all [Part.same]) rfl

theorem Frame.bumpI (h : Frame parts regs s t) {x : Reg} (hi : .i ∈ parts := by simp [Instr.partsWritten]) :
    Frame parts regs s (t.bumpI x) :=
  h.setI hi

theorem Frame.storeAtI (h : Frame parts regs s t) {bytes : List Byte}
    (hm : .mem ∈ parts := by simp [Instr.partsWritten]) :
    Frame parts regs s (t.storeAtI bytes) :=
  h.writePart hm (fun p hp => by cases p <;> simp_all [Part.same]) rfl

theorem Frame.drawByte (h : Frame parts regs s t) (hd : .draws ∈ parts := by simp [Instr.partsWritten]) :
    Frame parts regs s t.drawByte.2 :=
  h.writePart hd (fun p hp => by cases p <;> simp_all [Part.same]) rfl

theorem Frame.setFb (h : Frame parts regs s t) {fb : Vector FbRow 32}
    (hf : .fb ∈ parts := by simp [Instr.partsWritten]) :
    Frame parts regs s { t with fb := fb } :=
  h.writePart hf (fun p hp => by cases p <;> simp_all [Part.same]) rfl

theorem Frame.requestRedraw (h : Frame parts regs s t) (hr : .redrawPending ∈ parts := by simp [Instr.partsWritten]) :
    Frame parts regs s t.requestRedraw :=
  h.writePart hr (fun p hp => by cases p <;> simp_all [Part.same]) rfl

theorem Frame.drawSprite (h : Frame parts regs s t) {x y : Reg} {sprite : List Byte}
    (hf : .fb ∈ parts := by simp [Instr.partsWritten])
    (hr : .redrawPending ∈ parts := by simp [Instr.partsWritten]) (hvf : vf ∈ regs := by simp [Instr.regsWritten]) :
    Frame parts regs s (t.drawSprite x y sprite) :=
  ((h.setFb hf).setReg hvf).requestRedraw hr

theorem Frame.setStack (h : Frame parts regs s t) {sp : Fin 17} {stack : Vector Word 16}
    (hs : .stack ∈ parts := by simp [Instr.partsWritten]) :
    Frame parts regs s { t with sp := sp, stack := stack } :=
  h.writePart hs (fun p hp => by cases p <;> simp_all [Part.same]) rfl

theorem Frame.setDt (h : Frame parts regs s t) {b : Byte} (hd : .dt ∈ parts := by simp [Instr.partsWritten]) :
    Frame parts regs s { t with dt := b } :=
  h.writePart hd (fun p hp => by cases p <;> simp_all [Part.same]) rfl

theorem Frame.setSt (h : Frame parts regs s t) {b : Byte} (hs : .st ∈ parts := by simp [Instr.partsWritten]) :
    Frame parts regs s { t with st := b } :=
  h.writePart hs (fun p hp => by cases p <;> simp_all [Part.same]) rfl

theorem Frame.setPc (h : Frame parts regs s t) {w : Word} (hpc : .pc ∈ parts := by simp [Instr.partsWritten]) :
    Frame parts regs s { t with pc := w } :=
  h.writePart hpc (fun p hp => by cases p <;> simp_all [Part.same]) rfl

theorem Frame.next (h : Frame parts regs s t) (hpc : .pc ∈ parts := by simp [Instr.partsWritten]) :
    Frame parts regs s (t.advance .next) :=
  h.setPc hpc

theorem Frame.setWaitReg (h : Frame parts regs s t) {x : Reg}
    (hw : .waitReg ∈ parts := by simp [Instr.partsWritten]) :
    Frame parts regs s { t with waitReg := x } :=
  h.writePart hw (fun p hp => by cases p <;> simp_all [Part.same]) rfl

theorem Frame.setStatus (h : Frame parts regs s t) {st : Status}
    (hs : .status ∈ parts := by simp [Instr.partsWritten]) :
    Frame parts regs s { t with status := st } :=
  h.writePart hs (fun p hp => by cases p <;> simp_all [Part.same]) rfl

end Rules

/-! Where an instruction raises, and where it does not -/

/-- The bounds check passes where the instruction's own condition fails (R52, R161). -/
theorem State.accessFault_none_of_inside (s : State) {count : Nat} (h : ¬(0 < count ∧ 0xFFE < s.i.toNat + count - 1)) :
    s.accessFault count = none := if_neg h

/-- The registers Fx65 may write are V0..Vx. -/
theorem mem_regsWritten_loadRegisters {x r : Reg} (h : r.toNat ≤ x.toNat) :
    r ∈ (Instr.loadRegisters x).regsWritten :=
  List.mem_map.2 ⟨r.toNat, List.mem_range.2 (Nat.lt_succ_of_le h), by simp⟩

/-- An instruction that does not raise completes inside its frame. -/
theorem exec_frame (i : Instr) (s : State) (hr : ¬i.RaisesIn s) :
    ∃ t, exec i s = .next t ∧ Frame i.partsWritten i.regsWritten s t := by
  cases i
  case clearScreen => exact ⟨_, exec_clearScreen s, Frame.refl.setFb.requestRedraw.next⟩
  case ret =>
    have hsp : s.sp.val ≠ 0 := hr
    obtain ⟨k, hk⟩ : ∃ k : Fin 16, s.sp.val = k.val + 1 := ⟨⟨s.sp.val - 1, by omega⟩, by simp only; omega⟩
    exact ⟨_, exec_ret s k hk, (Frame.refl.setStack (sp := k.castSucc)).setPc⟩
  case call nnn =>
    have hsp : s.sp.val ≠ 16 := hr
    have h : s.sp.val < 16 := by omega
    exact ⟨_, exec_call s nnn h, (Frame.refl.setStack (stack := s.stack.set s.sp.val s.pc h)).setPc⟩
  case jump nnn => exact ⟨_, exec_jump s nnn, Frame.refl.setPc⟩
  case jumpPlusV0 nnn => exact ⟨_, exec_jumpPlusV0 s nnn, Frame.refl.setPc⟩
  case skipIfEqual x kk => exact ⟨_, exec_skipIfEqual s x kk, Frame.refl.setPc⟩
  case skipIfNotEqual x kk => exact ⟨_, exec_skipIfNotEqual s x kk, Frame.refl.setPc⟩
  case skipIfVxEqVy x y => exact ⟨_, exec_skipIfVxEqVy s x y, Frame.refl.setPc⟩
  case skipIfVxNeVy x y => exact ⟨_, exec_skipIfVxNeVy s x y, Frame.refl.setPc⟩
  case skipIfKeyDown x => exact ⟨_, exec_skipIfKeyDown s x, Frame.refl.setPc⟩
  case skipIfKeyUp x => exact ⟨_, exec_skipIfKeyUp s x, Frame.refl.setPc⟩
  case loadImmediate x kk => exact ⟨_, exec_loadImmediate s x kk, Frame.refl.setReg.next⟩
  case addImmediate x kk => exact ⟨_, exec_addImmediate s x kk, Frame.refl.setReg.next⟩
  case move x y => exact ⟨_, exec_move s x y, Frame.refl.setReg.next⟩
  case or x y => exact ⟨_, exec_or s x y, Frame.refl.setReg.next⟩
  case and x y => exact ⟨_, exec_and s x y, Frame.refl.setReg.next⟩
  case xor x y => exact ⟨_, exec_xor s x y, Frame.refl.setReg.next⟩
  case add x y => exact ⟨_, exec_add s x y, Frame.refl.setReg.setReg.next⟩
  case subXY x y => exact ⟨_, exec_subXY s x y, Frame.refl.setReg.setReg.next⟩
  case subYX x y => exact ⟨_, exec_subYX s x y, Frame.refl.setReg.setReg.next⟩
  case shiftRight x y => exact ⟨_, exec_shiftRight s x y, Frame.refl.setReg.setReg.next⟩
  case shiftLeft x y => exact ⟨_, exec_shiftLeft s x y, Frame.refl.setReg.setReg.next⟩
  case random x kk => exact ⟨_, exec_random s x kk, Frame.refl.drawByte.setReg.next⟩
  case setI nnn => exact ⟨_, exec_setI s nnn, Frame.refl.setI.next⟩
  case addToI x => exact ⟨_, exec_addToI s x, Frame.refl.setI.setAddIFlag.next⟩
  case loadFontAddress x => exact ⟨_, exec_loadFontAddress s x, Frame.refl.setI.next⟩
  case loadDelayTimer x => exact ⟨_, exec_loadDelayTimer s x, Frame.refl.setReg.next⟩
  case setDelayTimer x => exact ⟨_, exec_setDelayTimer s x, (Frame.refl.setDt (b := s.reg x)).setPc⟩
  case setSoundTimer x => exact ⟨_, exec_setSoundTimer s x, (Frame.refl.setSt (b := s.reg x)).setPc⟩
  case waitKey x => exact ⟨_, exec_waitKey s x, (Frame.refl.setWaitReg (x := x)).setStatus⟩
  case draw x y n => exact ⟨_, exec_draw s x y n (s.accessFault_none_of_inside hr), Frame.refl.drawSprite.next⟩
  case storeBCD x => exact ⟨_, exec_storeBCD s x (s.accessFault_none_of_inside hr), Frame.refl.storeAtI.next⟩
  case storeRegisters x =>
    exact ⟨_, exec_storeRegisters s x (s.accessFault_none_of_inside hr), Frame.refl.storeAtI.bumpI.next⟩
  case loadRegisters x =>
    exact ⟨_, exec_loadRegisters s x (s.accessFault_none_of_inside hr),
      (Frame.refl.loadRegsUpTo fun _ => mem_regsWritten_loadRegisters).bumpI.next⟩

/-- An instruction whose own fatal condition holds enters HALTED with its code (R215, R222). -/
theorem exec_raises (i : Instr) (s : State) (hr : i.RaisesIn s) :
    ∃ f : Fault, f.code = i.raiseCode ∧ exec i s = .next (s.halt f) := by
  cases i
  case ret => exact ⟨_, rfl, exec_ret_empty s hr⟩
  case call nnn => exact ⟨_, rfl, exec_call_full s nnn hr⟩
  case draw x y n => exact ⟨_, rfl, exec_draw_fault s x y n (s.accessFault_some _ hr.1 hr.2)⟩
  case storeBCD x => exact ⟨_, rfl, exec_storeBCD_fault s x (s.accessFault_some _ hr.1 hr.2)⟩
  case storeRegisters x => exact ⟨_, rfl, exec_storeRegisters_fault s x (s.accessFault_some _ hr.1 hr.2)⟩
  case loadRegisters x => exact ⟨_, rfl, exec_loadRegisters_fault s x (s.accessFault_some _ hr.1 hr.2)⟩
  -- The other 28 move no byte at I, so their condition `0 < 0 ∧ _` is false.
  all_goals exact absurd hr.1 (Nat.lt_irrefl 0)

/-- Settles O27: `exec_frame` where the instruction does not raise, `exec_raises` where it does. -/
theorem everyInstructionKeepsItsFrame : Obligations.EveryInstructionKeepsItsFrame := by
  intro i s t h
  refine ⟨fun hr => ?_, fun hr => ?_⟩
  · obtain ⟨u, hu, hframe⟩ := exec_frame i s hr
    obtain rfl := Host.Outcome.next.inj (hu.symm.trans h)
    exact hframe
  · obtain ⟨f, hf, hu⟩ := exec_raises i s hr
    obtain rfl := Host.Outcome.next.inj (hu.symm.trans h)
    exact hf ▸ halt_haltsWith s f

/-- What `exec` leaves alone whether or not it raises: a part the instruction does not write, but for the two parts the
entry into HALTED sets (R222). -/
theorem exec_same {i : Instr} {s t : State} (h : exec i s = .next t) {p : Part} (hp : p ∉ i.partsWritten)
    (hh : p ∉ [Part.status, Part.error]) : p.same s t := by
  by_cases hr : i.RaisesIn s
  · obtain ⟨-, -, hparts, -⟩ := (everyInstructionKeepsItsFrame i s t h).2 hr
    exact hparts p hh
  · exact ((everyInstructionKeepsItsFrame i s t h).1 hr).1 p hp

end Sys2Proof.Machine
end

section
/-! SUPPORT. The arguments of the model stay what they are: no instruction, no move of the host and no end of a step writes
them (00_scope.md R7; log 1). -/

namespace Sys2Proof.Machine

theorem params_not_mem_partsWritten (i : Instr) : Part.params ∉ i.partsWritten := by
  cases i <;> simp [Instr.partsWritten]

theorem exec_params {i : Instr} {s t : State} (h : exec i s = .next t) : t.params = s.params :=
  exec_same h (params_not_mem_partsWritten i) (by decide)

variable (s : State)

theorem State.strobeTick_params : s.strobeTick.params = s.params := by
  obtain ⟨-, -, h⟩ | ⟨-, h⟩ := s.strobeTick_cases <;> simp [h]

theorem State.frameAck_params : s.frameAck.params = s.params := by
  obtain ⟨-, h⟩ | ⟨-, h⟩ := s.frameAck_cases <;> simp [h]

theorem State.keyRelease_params (m : Word) : (s.keyRelease m).params = s.params := by
  obtain ⟨-, -, -, h⟩ | ⟨-, h⟩ := s.keyRelease_cases m <;> simp [h]

/-- The loop's own instant: a step of the loop, or none. -/
theorem quiet_step_params {u : State} (hq : Quiet s) (hu : step s = .next u) : u.params = s.params := by
  by_cases hrun : s.status = .run ∧ s.runEnable = true
  · rcases stepping_cases s ⟨hq, hrun⟩ hu with ⟨-, rfl⟩ | ⟨op, -, ⟨r, -, rfl⟩ | ⟨i, t, -, ht, rfl⟩⟩
    · simp
    · simp
    · simpa using exec_params ht
  · rw [step_of_not_stepping s hq (by simpa [imp_iff_not_or] using hrun)] at hu
    obtain rfl := Host.Outcome.next.inj hu
    rfl

/-- An instant the host has a move in (R46). -/
theorem hostMove_params {m : HostMove} {u : State} (hm : m ≠ .quiet) (hu : hostMove m s = .next u) :
    u.params = s.params := by
  cases m
  case quiet => exact absurd rfl hm
  all_goals obtain rfl := Host.Outcome.next.inj hu
  case reset => exact s.powerOnReset_params
  case load blob => exact s.loadProgram_params blob
  case keyRelease mask => exact s.keyRelease_params mask
  case tick => exact s.strobeTick_params
  case frameAck => exact s.frameAck_params
  case setRunEnable | setKeysDown | writeHostStatus => rfl

/-- Settles O24: an instant is the loop's turn or a move of the host, and neither writes the arguments. -/
theorem noStepChangesTheArguments : Obligations.NoStepChangesTheArguments := by
  intro s u hu
  by_cases hq : Quiet s
  · exact quiet_step_params s hq hu
  · rw [step_eq] at hu
    exact hostMove_params s.atInstant hq hu

end Sys2Proof.Machine
end

section
/-! SUPPORT. What an instant can do, said once: the loop's step in its three forms, no step, or one move of the host
(10_state.md R46, 40_execution_loop.md R97, R98, R102). -/

namespace Sys2Proof.Machine

/-- What one instant can make of `s`, one constructor for each way it can go. -/
inductive InstantTo (s : State) : State → Prop where
  | fetchFault (hs : Steps s) (hpc : 0xFFE ≤ s.pc.toNat) :
      InstantTo s (s.atInstant.halt (.addressOutOfRange s.pc.toNat))
  | undefined (hs : Steps s) {op : Word} {r : Reject} (hop : Fetches s op) (hd : decode op = .error r) :
      InstantTo s (s.atInstant.undefinedOpcode op).finishStep
  | instruction (hs : Steps s) {op : Word} {i : Instr} {t : State} (hop : Fetches s op) (hd : decode op = .ok i)
      (ht : exec i s.atInstant = .next t) : InstantTo s t.finishStep
  | hold (hq : Quiet s) (hrun : s.status ≠ .run ∨ s.runEnable = false) : InstantTo s s.atInstant
  | reset (hm : (nextMove s).1 = .reset) : InstantTo s s.atInstant.powerOnReset
  | load {blob : List Byte} (hm : (nextMove s).1 = .load blob) : InstantTo s (s.atInstant.loadProgram blob)
  | setRunEnable {level : Bool} (hm : (nextMove s).1 = .setRunEnable level) :
      InstantTo s { s.atInstant with runEnable := level }
  | setKeysDown {mask : Word} (hm : (nextMove s).1 = .setKeysDown mask) :
      InstantTo s { s.atInstant with keysDown := mask }
  | keyRelease {mask : Word} (hm : (nextMove s).1 = .keyRelease mask) : InstantTo s (s.atInstant.keyRelease mask)
  | tick (hm : (nextMove s).1 = .tick) : InstantTo s s.atInstant.strobeTick
  | frameAck (hm : (nextMove s).1 = .frameAck) : InstantTo s s.atInstant.frameAck
  | writeHostStatus {value : Word} (hm : (nextMove s).1 = .writeHostStatus value) : InstantTo s s.atInstant

variable {s u : State}

theorem InstantTo.of_quiet (hq : Quiet s) (hu : step s = .next u) : InstantTo s u := by
  by_cases hrun : s.status = .run ∧ s.runEnable = true
  · have hs : Steps s := ⟨hq, hrun⟩
    rcases stepping_cases s hs hu with ⟨hpc, rfl⟩ | ⟨op, hop, ⟨r, hd, rfl⟩ | ⟨i, t, hd, ht, rfl⟩⟩
    · exact .fetchFault hs hpc
    · exact .undefined hs hop hd
    · exact .instruction hs hop hd ht
  · have hrun' : s.status ≠ .run ∨ s.runEnable = false := by simpa [imp_iff_not_or] using hrun
    obtain rfl := Host.Outcome.next.inj ((step_of_not_stepping s hq hrun').symm.trans hu)
    exact .hold hq hrun'

theorem step_of_move {m : HostMove} (hm : (nextMove s).1 = m) : step s = hostMove m s.atInstant := by
  rw [step_eq, hm]

/-- Every step goes one of these ways. -/
theorem InstantTo.of_step (hu : step s = .next u) : InstantTo s u := by
  cases hm : (nextMove s).1
  case quiet => exact .of_quiet hm hu
  all_goals rw [step_of_move hm] at hu
  all_goals obtain rfl := Host.Outcome.next.inj hu
  case reset => exact .reset hm
  case load => exact .load hm
  case setRunEnable => exact .setRunEnable hm
  case setKeysDown => exact .setKeysDown hm
  case keyRelease => exact .keyRelease hm
  case tick => exact .tick hm
  case frameAck => exact .frameAck hm
  case writeHostStatus => exact .writeHostStatus hm

end Sys2Proof.Machine
end

section
/-! SUPPORT. Owned state (10_state.md R41, R27, R29, R34, R22): a part is written by the instructions that list it. -/

namespace Sys2Proof.Machine

/-- `exec` answers one state. -/
theorem exec_unique {i : Instr} {s t u : State} (hu : exec i s = .next u) (ht : exec i s = .next t) : u = t :=
  Host.Outcome.next.inj (hu.symm.trans ht)

/-- Where it does not raise, an instruction leaves every part it does not list. -/
theorem exec_same_of_not_raises {i : Instr} {s t : State} (h : exec i s = .next t) (hr : ¬i.RaisesIn s) {p : Part}
    (hp : p ∉ i.partsWritten) : p.same s t := by
  obtain ⟨hparts, -⟩ := (everyInstructionKeepsItsFrame i s t h).1 hr
  exact hparts p hp

/-- An instruction that changes a part lists it, but for the two parts the entry into HALTED sets (R222). -/
theorem mem_partsWritten_of_changed {i : Instr} {s t : State} (h : exec i s = .next t) {p : Part}
    (hh : p ∉ [Part.status, Part.error]) (hne : ¬p.same s t) : p ∈ i.partsWritten :=
  by_contra fun hp => hne (exec_same h hp hh)

theorem waitReg_mem_partsWritten {i : Instr} : Part.waitReg ∈ i.partsWritten ↔ ∃ x, i = .waitKey x := by
  cases i <;> simp [Instr.partsWritten]

theorem stack_mem_partsWritten {i : Instr} : Part.stack ∈ i.partsWritten ↔ i = .ret ∨ ∃ nnn, i = .call nnn := by
  cases i <;> simp [Instr.partsWritten]

theorem dt_mem_partsWritten {i : Instr} : Part.dt ∈ i.partsWritten ↔ ∃ x, i = .setDelayTimer x := by
  cases i <;> simp [Instr.partsWritten]

theorem st_mem_partsWritten {i : Instr} : Part.st ∈ i.partsWritten ↔ ∃ x, i = .setSoundTimer x := by
  cases i <;> simp [Instr.partsWritten]

theorem fb_mem_partsWritten {i : Instr} :
    Part.fb ∈ i.partsWritten ↔ i = .clearScreen ∨ ∃ x y n, i = .draw x y n := by
  cases i <;> simp [Instr.partsWritten]

theorem redrawPending_mem_partsWritten {i : Instr} :
    Part.redrawPending ∈ i.partsWritten ↔ i = .clearScreen ∨ ∃ x y n, i = .draw x y n := by
  cases i <;> simp [Instr.partsWritten]

theorem status_mem_partsWritten {i : Instr} : Part.status ∈ i.partsWritten ↔ ∃ x, i = .waitKey x := by
  cases i <;> simp [Instr.partsWritten]

theorem i_mem_partsWritten {i : Instr} :
    Part.i ∈ i.partsWritten ↔ (∃ nnn, i = .setI nnn) ∨ (∃ x, i = .addToI x) ∨ (∃ x, i = .loadFontAddress x) ∨
      (∃ x, i = .storeRegisters x) ∨ ∃ x, i = .loadRegisters x := by
  cases i <;> simp [Instr.partsWritten]

/-- What Return does, said once: it raises on the empty stack, or pops the top entry (R112). -/
theorem exec_ret_cases {s t : State} (h : exec .ret s = .next t) :
    (s.sp.val = 0 ∧ t = s.halt (.stackUnderflow s.pc)) ∨
      ∃ k : Fin 16, s.sp.val = k.val + 1 ∧ t = { s with sp := k.castSucc, pc := s.stack[k] + 2 } := by
  by_cases hsp : s.sp.val = 0
  · exact .inl ⟨hsp, exec_unique h (exec_ret_empty s hsp)⟩
  · obtain ⟨k, hk⟩ : ∃ k : Fin 16, s.sp.val = k.val + 1 := ⟨⟨s.sp.val - 1, by omega⟩, by simp only; omega⟩
    exact .inr ⟨k, hk, exec_unique h (exec_ret s k hk)⟩

/-- What Call does, said once: it raises on the full stack, or pushes its own address (R114). -/
theorem exec_call_cases {s t : State} {nnn : Addr} (h : exec (.call nnn) s = .next t) :
    (s.sp.val = 16 ∧ t = s.halt (.stackOverflow s.pc)) ∨
      ∃ h : s.sp.val < 16, t = { s with
        stack := s.stack.set s.sp.val s.pc h, sp := ⟨s.sp.val + 1, Nat.succ_lt_succ h⟩, pc := zextAddr nnn } := by
  by_cases hsp : s.sp.val < 16
  · exact .inr ⟨hsp, exec_unique h (exec_call s nnn hsp)⟩
  · have hfull : s.sp.val = 16 := by omega
    exact .inl ⟨hfull, exec_unique h (exec_call_full s nnn hfull)⟩

/-- Return leaves the popped entry in place (log 9). -/
theorem exec_ret_stack {s t : State} (h : exec .ret s = .next t) : t.stack = s.stack := by
  obtain ⟨-, rfl⟩ | ⟨k, -, rfl⟩ := exec_ret_cases h <;> rfl

/-- Settles O60: a part that changed is one the instruction lists; of the two that list the stack, Return keeps its
entries. -/
theorem ownedStateIsWrittenByItsOwners : Obligations.OwnedStateIsWrittenByItsOwners := by
  intro i s t h
  have stack_owner (hne : ¬Part.stack.same s t) : i = .ret ∨ ∃ nnn, i = .call nnn :=
    stack_mem_partsWritten.1 (mem_partsWritten_of_changed h (by decide) hne)
  refine ⟨fun hne => ?_, fun hne => ?_, fun hne => ?_, fun hne => ?_, fun hne => ?_, fun hne => ?_, fun hne => ?_⟩
  · exact waitReg_mem_partsWritten.1 (mem_partsWritten_of_changed h (by decide) hne)
  · exact stack_owner fun hs => hne hs.1
  · obtain rfl | hcall := stack_owner fun hs => hne hs.2
    · exact absurd (exec_ret_stack h) hne
    · exact hcall
  · exact dt_mem_partsWritten.1 (mem_partsWritten_of_changed h (by decide) hne)
  · exact st_mem_partsWritten.1 (mem_partsWritten_of_changed h (by decide) hne)
  · exact fb_mem_partsWritten.1 (mem_partsWritten_of_changed h (by decide) hne)
  · exact i_mem_partsWritten.1 (mem_partsWritten_of_changed h (by decide) hne)

end Sys2Proof.Machine
end

section
/-! SUPPORT. Where one execute phase can leave PC and memory, said once (40_execution_loop.md R94, 20_memory.md R55). -/

namespace Sys2Proof.Machine

variable {s t u : State} {i : Instr}

/-- The values an execute phase and its PC advance can give PC (R24, R94). -/
inductive PcAfter (s : State) : Word → Prop where
  | stay : PcAfter s s.pc
  | next : PcAfter s (s.pc + 2)
  | skip : PcAfter s (s.pc + 4)
  | jump (nnn : Addr) : PcAfter s (zextAddr nnn)
  | jumpPlusV0 (nnn : Addr) : PcAfter s (s.plusV0 nnn)
  | ret (k : Fin 16) (hk : k.val < s.sp.val) : PcAfter s (s.stack[k] + 2)

/-- Memory as an execute phase can leave it: as it was, or with bytes stored at I (R55). -/
inductive MemAfter (s : State) : Memory → Prop where
  | same : MemAfter s s.mem
  | stored (bytes : List Byte) : MemAfter s (Memory.writeBytes s.params s.mem s.i.toNat bytes)

theorem zextAddr_toNat (nnn : Addr) : (zextAddr nnn).toNat = nnn.toNat :=
  BitVec.toNat_setWidth_of_le (by decide)

/-- Bnnn's sum does not wrap (R119). -/
theorem State.plusV0_toNat (s : State) (nnn : Addr) : (s.plusV0 nnn).toNat = nnn.toNat + (s.reg 0).toNat := by
  have hn := nnn.isLt
  have hr := (s.reg 0).isLt
  simp only [State.plusV0, BitVec.toNat_add, zextAddr_toNat, BitVec.toNat_setWidth]
  omega

/-- "Every PC value the rules can produce is at most 0x10FE" (R24): the largest is Bnnn's. -/
theorem PcAfter.le {w : Word} (h : PcAfter s w) (hpc : s.pc.toNat ≤ 0xFFD)
    (hret : ∀ k : Fin 16, k.val < s.sp.val → s.stack[k].toNat ≤ 0xFFD) : w.toNat ≤ 0x10FE := by
  cases h with
  | stay => omega
  | next => bv_omega
  | skip => bv_omega
  | jump nnn => rw [zextAddr_toNat]; omega
  | jumpPlusV0 nnn => rw [State.plusV0_toNat]; omega
  | ret k hk => have := hret k hk; bv_omega

theorem MemAfter.wf {m : Memory} (h : MemAfter s m) (hw : Memory.wf s.params s.mem) : Memory.wf s.params m := by
  cases h with
  | same => exact hw
  | stored bytes => exact Memory.writeBytes_wf hw _ bytes

theorem completeSkipIf_pc_mem {c : Bool} (h : completeSkipIf c s = .next t) : PcAfter s t.pc ∧ MemAfter s t.mem := by
  obtain rfl := Host.Outcome.next.inj h
  cases c
  · exact ⟨.next, .same⟩
  · exact ⟨.skip, .same⟩

theorem exec_pc_mem (h : exec i s = .next t) : PcAfter s t.pc ∧ MemAfter s t.mem := by
  by_cases hr : i.RaisesIn s
  · obtain ⟨f, -, hf⟩ := exec_raises i s hr
    obtain rfl := exec_unique hf h
    exact ⟨.stay, .same⟩
  cases i
  case ret =>
    obtain ⟨hsp, -⟩ | ⟨k, hk, rfl⟩ := exec_ret_cases h
    · exact absurd hsp hr
    · exact ⟨.ret k (by omega), .same⟩
  case call nnn =>
    obtain ⟨hsp, -⟩ | ⟨-, rfl⟩ := exec_call_cases h
    · exact absurd hsp hr
    · exact ⟨.jump nnn, .same⟩
  case skipIfEqual | skipIfNotEqual | skipIfVxEqVy | skipIfVxNeVy | skipIfKeyDown | skipIfKeyUp =>
    exact completeSkipIf_pc_mem h
  case draw x y n =>
    obtain rfl := exec_unique (exec_draw s x y n (s.accessFault_none_of_inside hr)) h
    exact ⟨.next, .same⟩
  case storeBCD x =>
    obtain rfl := exec_unique (exec_storeBCD s x (s.accessFault_none_of_inside hr)) h
    exact ⟨.next, .stored _⟩
  case storeRegisters x =>
    obtain rfl := exec_unique (exec_storeRegisters s x (s.accessFault_none_of_inside hr)) h
    exact ⟨.next, .stored _⟩
  case loadRegisters x =>
    obtain rfl := exec_unique (exec_loadRegisters s x (s.accessFault_none_of_inside hr)) h
    exact ⟨.next, .same⟩
  all_goals obtain rfl := Host.Outcome.next.inj h
  case jump nnn => exact ⟨.jump nnn, .same⟩
  case jumpPlusV0 nnn => exact ⟨.jumpPlusV0 nnn, .same⟩
  case waitKey => exact ⟨.stay, .same⟩
  case addToI =>
    rw [State.advance_next_pc, State.setAddIFlag_pc, State.advance_next_mem, State.setAddIFlag_mem]
    exact ⟨.next, .same⟩
  all_goals exact ⟨.next, .same⟩

/-- Where the instruction does not raise, STATUS stays or the instruction is WaitKey, which keeps PC (R204). -/
theorem exec_status_cases (h : exec i s = .next t) (hr : ¬i.RaisesIn s) :
    t.status = s.status ∨ t.status = .waitKey ∧ t.pc = s.pc := by
  by_cases hp : Part.status ∈ i.partsWritten
  · obtain ⟨x, rfl⟩ := status_mem_partsWritten.1 hp
    obtain rfl := exec_unique (exec_waitKey s x) h
    exact .inr ⟨rfl, rfl⟩
  · exact .inl (exec_same_of_not_raises h hr hp)

theorem exec_error (h : exec i s = .next t) (hr : ¬i.RaisesIn s) : t.error = s.error :=
  exec_same_of_not_raises (p := .error) h hr (by cases i <;> simp [Instr.partsWritten])

theorem raiseCode_mem (i : Instr) : i.raiseCode ∈ ([3, 5, 6] : List (BitVec 3)) := by
  cases i <;> simp [Instr.raiseCode]

/-- A Call pushes its own fetchable address, a Return drops the top entry, and nothing else touches the stack (R112,
R114). -/
theorem exec_returns (h : exec i s = .next t) (hpc : s.pc.toNat ≤ 0xFFD)
    (hret : ∀ k : Fin 16, k.val < s.sp.val → s.stack[k].toNat ≤ 0xFFD) :
    ∀ k : Fin 16, k.val < t.sp.val → t.stack[k].toNat ≤ 0xFFD := by
  by_cases hp : Part.stack ∈ i.partsWritten
  · obtain rfl | ⟨nnn, rfl⟩ := stack_mem_partsWritten.1 hp
    · obtain ⟨-, rfl⟩ | ⟨j, hj, rfl⟩ := exec_ret_cases h
      · exact hret
      · exact fun k hk => hret k (by simp only [Fin.val_castSucc] at hk; omega)
    · obtain ⟨-, rfl⟩ | ⟨-, rfl⟩ := exec_call_cases h
      · exact hret
      · intro k hk
        simp only [Fin.getElem_fin, Vector.getElem_set]
        split
        · exact hpc
        · exact hret k (by simp only at hk; omega)
  · obtain ⟨hsp, hstack⟩ := exec_same h hp (by decide)
    rw [hsp, hstack]
    exact hret

end Sys2Proof.Machine
end

section
/-! SUPPORT. The invariant of every run (10_state.md R24, 41_control_flow.md R112, 60_exceptions.md R222, R223). -/

namespace Sys2Proof.Machine

variable {s t : State} {i : Instr}

/-! The invariant reads memory, PC, the stack, STATUS and ERROR only -/

theorem State.Inv.of_same (h : s.Inv) (hparams : t.params = s.params := by simp) (hmem : t.mem = s.mem := by simp)
    (hpc : t.pc = s.pc := by simp) (hsp : t.sp = s.sp := by simp) (hstack : t.stack = s.stack := by simp)
    (hstatus : t.status = s.status := by simp) (herror : t.error = s.error := by simp) : t.Inv where
  memWf := by rw [hparams, hmem]; exact h.memWf
  pcReach := by rw [hpc]; exact h.pcReach
  returns := by rw [hsp, hstack]; exact h.returns
  waitPc := by rw [hstatus, hpc]; exact h.waitPc
  haltedError := by rw [hstatus, herror]; exact h.haltedError
  errorCode := by rw [herror]; exact h.errorCode

theorem State.Inv.atInstant (h : s.Inv) : s.atInstant.Inv := h.of_same

theorem State.Inv.finishStep (h : s.Inv) : s.finishStep.Inv := h.of_same

theorem State.Inv.error_eq_zero (h : s.Inv) (hs : s.status ≠ .halted) : s.error = 0 :=
  by_contra fun he => hs (h.haltedError.2 he)

/-- Entering HALTED with a code of R215 that has a path. -/
theorem State.Inv.halt (h : s.Inv) {f : Fault} (hf : f.code ∈ ([3, 5, 6] : List (BitVec 3))) : (s.halt f).Inv where
  memWf := h.memWf
  pcReach := h.pcReach
  returns := h.returns
  waitPc := nofun
  haltedError := ⟨fun _ => ne_of_mem_of_not_mem hf (by decide), fun _ => rfl⟩
  errorCode := List.mem_cons_of_mem _ hf

/-- Going on in RUN at another PC the rules can produce. -/
theorem State.Inv.runAt (h : s.Inv) (hs : s.status ≠ .halted) (hparams : t.params = s.params := by simp)
    (hmem : t.mem = s.mem := by simp) (hpc : t.pc.toNat ≤ 0x10FE) (hsp : t.sp = s.sp := by simp)
    (hstack : t.stack = s.stack := by simp) (hstatus : t.status = .run) (herror : t.error = s.error := by simp) :
    t.Inv where
  memWf := by rw [hparams, hmem]; exact h.memWf
  pcReach := hpc
  returns := by rw [hsp, hstack]; exact h.returns
  waitPc := by simp [hstatus]
  haltedError := by simp [hstatus, herror, h.error_eq_zero hs]
  errorCode := by rw [herror]; exact h.errorCode

/-! The invariant over the operations of an instant -/

/-- An execute phase that was fetched keeps the invariant. -/
theorem State.Inv.exec (h : s.Inv) (hs : s.status = .run) (hpc : s.pc.toNat ≤ 0xFFD)
    (ht : Machine.exec i s = .next t) : t.Inv := by
  by_cases hr : i.RaisesIn s
  · obtain ⟨f, hf, hu⟩ := exec_raises i s hr
    obtain rfl := exec_unique hu ht
    exact h.halt (hf ▸ raiseCode_mem i)
  obtain ⟨hpcAfter, hmemAfter⟩ := exec_pc_mem ht
  have hstatus := exec_status_cases ht hr
  have herror : t.error = 0 := (exec_error ht hr).trans (h.error_eq_zero (by simp [hs]))
  exact
    { memWf := exec_params ht ▸ hmemAfter.wf h.memWf
      pcReach := hpcAfter.le hpc h.returns
      returns := exec_returns ht hpc h.returns
      waitPc := fun hw => by
        obtain hrun | ⟨-, hstay⟩ := hstatus
        · simp [hrun, hs] at hw
        · rw [hstay]; exact hpc
      haltedError := by
        obtain hrun | ⟨hw, -⟩ := hstatus
        · simp [hrun, hs, herror]
        · simp [hw, herror]
      errorCode := by simp [herror] }

/-- A fetched address (R91). -/
theorem Fetches.pc_le {op : Word} (h : Fetches s op) : s.pc.toNat ≤ 0xFFD := Nat.le_of_succ_le_succ h.1

/-- A state with canonical memory, the program's start as PC, an empty stack and no error, outside HALTED. -/
theorem State.Inv.of_empty (hmem : Memory.wf t.params t.mem) (hpc : t.pc = 0x200) (hsp : t.sp = 0)
    (hstatus : t.status = .idle ∨ t.status = .run) (herror : t.error = 0) : t.Inv where
  memWf := hmem
  pcReach := by simp [hpc]
  returns := by simp [hsp]
  waitPc := by simp [hpc]
  haltedError := by obtain h | h := hstatus <;> simp [h, herror]
  errorCode := by simp [herror]

/-- Settles O23: nothing is listed in memory and the stack is empty. -/
theorem resetStateMeetsTheInvariant : Obligations.ResetStateMeetsTheInvariant :=
  .of_empty Memory.nil_wf rfl rfl (.inl rfl) rfl

theorem State.powerOnReset_inv (s : State) : s.powerOnReset.Inv := .of_empty Memory.nil_wf rfl rfl (.inl rfl) rfl

theorem State.Inv.loadProgram (h : s.Inv) (blob : List Byte) : (s.loadProgram blob).Inv := by
  obtain ⟨-, hload⟩ | ⟨-, hload⟩ := s.loadProgram_cases blob <;> rw [hload]
  · exact h.of_same
  · exact .of_empty (Memory.writeBytes_wf Memory.nil_wf _ _) rfl rfl (.inr rfl) rfl

/-- A wait that completes goes on after its fetchable WaitKey (R205). -/
theorem State.Inv.keyRelease (h : s.Inv) (mask : Word) : (s.keyRelease mask).Inv := by
  obtain ⟨hwait, -, -, hkey⟩ | ⟨-, hkey⟩ := s.keyRelease_cases mask <;> rw [hkey]
  · have hpc := h.waitPc hwait
    exact h.runAt (by simp [hwait]) (hpc := by rw [State.completeWait_pc]; bv_omega) (hstatus := by simp)
  · exact h

theorem State.Inv.strobeTick (h : s.Inv) : s.strobeTick.Inv := by
  obtain ⟨-, -, htick⟩ | ⟨-, htick⟩ := s.strobeTick_cases <;> rw [htick]
  · exact h.of_same
  · exact h

theorem State.Inv.frameAck (h : s.Inv) : s.frameAck.Inv := by
  obtain ⟨-, hack⟩ | ⟨-, hack⟩ := s.frameAck_cases <;> rw [hack]
  · exact h.of_same
  · exact h

theorem State.Inv.undefinedOpcode (h : s.Inv) (hs : s.status = .run) (hpc : s.pc.toNat ≤ 0xFFD) (op : Word) :
    (s.undefinedOpcode op).Inv :=
  h.runAt (by simp [hs]) (hpc := by rw [State.undefinedOpcode_pc]; bv_omega) (hstatus := hs)

/-- Settles O22: whichever way the instant goes, it keeps the invariant of the state it acts on. -/
theorem everyStepKeepsTheInvariant : Obligations.EveryStepKeepsTheInvariant := by
  intro s u hinv hu
  have h : s.atInstant.Inv := hinv.atInstant
  cases InstantTo.of_step hu with
  | fetchFault => exact h.halt (by simp [Fault.code])
  | undefined hs hop =>
    obtain ⟨-, hrun, -⟩ := hs
    exact (h.undefinedOpcode hrun hop.pc_le _).finishStep
  | instruction hs hop _ ht =>
    obtain ⟨-, hrun, -⟩ := hs
    exact (h.exec hrun hop.pc_le ht).finishStep
  | hold | writeHostStatus => exact h
  | reset => exact s.atInstant.powerOnReset_inv
  | load => exact h.loadProgram _
  | setRunEnable | setKeysDown => exact h.of_same
  | keyRelease => exact h.keyRelease _
  | tick => exact h.strobeTick
  | frameAck => exact h.frameAck

end Sys2Proof.Machine
end

section
/-! SUPPORT. REDRAW_PENDING and UNDEF_SEEN, and the word HOST_STATUS (10_state.md R42, R45). -/

namespace Sys2Proof.Machine

/-! The two levels over the operations of an instant -/

section Levels

variable {s t : State} {i : Instr}

/-- Only ClearScreen and Draw write REDRAW_PENDING, and both raise it (R100). -/
theorem exec_redrawPending (h : exec i s = .next t) (hs : s.redrawPending = true) : t.redrawPending = true := by
  by_cases hp : Part.redrawPending ∈ i.partsWritten
  · by_cases hr : i.RaisesIn s
    · obtain ⟨f, -, hf⟩ := exec_raises i s hr
      obtain rfl := exec_unique hf h
      exact hs
    obtain rfl | ⟨x, y, n, rfl⟩ := redrawPending_mem_partsWritten.1 hp
    · obtain rfl := exec_unique (exec_clearScreen s) h
      rfl
    · obtain rfl := exec_unique (exec_draw s x y n (s.accessFault_none_of_inside hr)) h
      rw [State.advance_next_redrawPending, State.drawSprite_redrawPending]
  · exact (exec_same h hp (by decide) : t.redrawPending = s.redrawPending).trans hs

theorem exec_undefSeen (h : exec i s = .next t) : t.undefSeen = s.undefSeen :=
  exec_same (p := .undefSeen) h (by cases i <;> simp [Instr.partsWritten]) (by decide)

theorem State.keyRelease_redrawPending (m : Word) : (s.keyRelease m).redrawPending = s.redrawPending := by
  obtain ⟨-, -, -, h⟩ | ⟨-, h⟩ := s.keyRelease_cases m <;> simp [h]

theorem State.keyRelease_undefSeen (m : Word) : (s.keyRelease m).undefSeen = s.undefSeen := by
  obtain ⟨-, -, -, h⟩ | ⟨-, h⟩ := s.keyRelease_cases m <;> simp [h]

theorem State.strobeTick_redrawPending : s.strobeTick.redrawPending = s.redrawPending := by
  obtain ⟨-, -, h⟩ | ⟨-, h⟩ := s.strobeTick_cases <;> simp [h]

theorem State.strobeTick_undefSeen : s.strobeTick.undefSeen = s.undefSeen := by
  obtain ⟨-, -, h⟩ | ⟨-, h⟩ := s.strobeTick_cases <;> simp [h]

theorem State.frameAck_undefSeen : s.frameAck.undefSeen = s.undefSeen := by
  obtain ⟨-, h⟩ | ⟨-, h⟩ := s.frameAck_cases <;> simp [h]

theorem State.frameAck_clears (h : s.status = .run ∨ s.status = .waitKey) :
    s.frameAck = { s with redrawPending := false } := by
  obtain h | h := h <;> simp [State.frameAck, h]

/-- A Load beyond its size is refused and leaves both levels; one that is taken clears UNDEF_SEEN (R48, R216). -/
theorem State.loadProgram_levels (s : State) (blob : List Byte) :
    (3583 < blob.length ∧ (s.loadProgram blob).redrawPending = s.redrawPending ∧
      (s.loadProgram blob).undefSeen = s.undefSeen) ∨
      (blob.length ≤ 3583 ∧ (s.loadProgram blob).undefSeen = false) := by
  obtain ⟨hlen, h⟩ | ⟨hlen, h⟩ := s.loadProgram_cases blob <;> rw [h]
  · exact .inl ⟨hlen, rfl, rfl⟩
  · exact .inr ⟨hlen, rfl⟩

end Levels

/-- Reset, or a Load the block takes: the moves that clear the block (R48). -/
def Clears (s : State) : Prop :=
  (nextMove s).1 = .reset ∨ ∃ blob, (nextMove s).1 = .load blob ∧ blob.length ≤ 3583

/-- REDRAW_PENDING falls in no other way an instant can go. -/
theorem redrawPending_kept {s u : State} (hu : step s = .next u) (h : s.redrawPending = true) :
    u.redrawPending = true ∨ (nextMove s).1 = .frameAck ∨ Clears s := by
  cases InstantTo.of_step hu with
  | fetchFault | hold | writeHostStatus | setRunEnable | setKeysDown => exact .inl h
  | undefined => exact .inl (by simpa using h)
  | instruction _ _ _ ht => exact .inl (by simpa using exec_redrawPending ht h)
  | reset hm => exact .inr (.inr (.inl hm))
  | load hm =>
    obtain ⟨-, hkept, -⟩ | ⟨hlen, -⟩ := s.atInstant.loadProgram_levels _
    · exact .inl (hkept.trans h)
    · exact .inr (.inr (.inr ⟨_, hm, hlen⟩))
  | keyRelease => exact .inl ((State.keyRelease_redrawPending _).trans h)
  | tick => exact .inl (State.strobeTick_redrawPending.trans h)
  | frameAck hm => exact .inr (.inl hm)

/-- Settles O19: an instant by none of the three moves keeps the level, and `frame_ack` answers with its one write. -/
theorem redrawPendingIsSticky : Obligations.RedrawPendingIsSticky := by
  refine ⟨fun s u hu hbefore hafter => (redrawPending_kept hu hbefore).resolve_left (by simp [hafter]),
    fun s hm hstatus => ?_⟩
  have hstep : step s = .next { s.atInstant with redrawPending := false } := by
    rw [← State.frameAck_clears (s := s.atInstant) hstatus]
    exact step_of_move hm
  exact ⟨_, hstep, rfl, fun p hp => by cases p <;> simp_all [Part.same], fun r _ => rfl⟩

/-! HOST_STATUS and UNDEF_SEEN (R45) -/

theorem toNat_append_eq_add {m n : Nat} (x : BitVec m) (y : BitVec n) :
    (x ++ y).toNat = 2 ^ n * x.toNat + y.toNat := by
  rw [BitVec.toNat_append, ← Nat.shiftLeft_add_eq_or_of_lt y.isLt, Nat.shiftLeft_eq, Nat.mul_comm]

theorem State.soundActive_iff (s : State) : s.soundActive = true ↔ ¬s.st = 0 := bne_iff_ne

/-- The fields of HOST_STATUS by their weights. -/
theorem hostStatus_toNat (s : State) : s.hostStatus.toNat =
    s.status.code.toNat + 4 * s.error.toNat + (if s.redrawPending then 32 else 0) + (if s.st = 0 then 0 else 64) +
      (if s.undefSeen then 128 else 0) + 256 * s.waitReg.toNat := by
  simp only [State.hostStatus, toNat_append_eq_add, BitVec.toNat_ofBool, Bool.toNat, Bool.cond_eq_ite,
    State.soundActive_iff, ite_not]
  split_ifs <;> simp <;> omega

/-- UNDEF_SEEN over an instant: as it was, raised by an Undefined opcode (R99), or cleared (R48). -/
theorem undefSeen_cases {s u : State} (hu : step s = .next u) :
    u.undefSeen = s.undefSeen ∨
      (u.undefSeen = true ∧ Steps s ∧ ∃ op r, Fetches s op ∧ decode op = .error r) ∨
        (u.undefSeen = false ∧ Clears s) := by
  cases InstantTo.of_step hu with
  | fetchFault | hold | writeHostStatus | setRunEnable | setKeysDown => exact .inl rfl
  | undefined hs hop hd => exact .inr (.inl ⟨by simp, hs, _, _, hop, hd⟩)
  | instruction _ _ _ ht => exact .inl (by simpa using exec_undefSeen ht)
  | reset hm => exact .inr (.inr ⟨rfl, .inl hm⟩)
  | load hm =>
    obtain ⟨-, -, hkept⟩ | ⟨hlen, hclear⟩ := s.atInstant.loadProgram_levels _
    · exact .inl hkept
    · exact .inr (.inr ⟨hclear, .inr ⟨_, hm, hlen⟩⟩)
  | keyRelease => exact .inl (State.keyRelease_undefSeen _)
  | tick => exact .inl State.strobeTick_undefSeen
  | frameAck => exact .inl State.frameAck_undefSeen

/-- Settles O20: the weights by the widths of the fields, and UNDEF_SEEN by the ways an instant can go. -/
theorem hostStatusPacksItsFields : Obligations.HostStatusPacksItsFields := by
  refine ⟨hostStatus_toNat, by decide, ⟨rfl, rfl, rfl, rfl⟩, fun s w hm => ?_, fun s u hu hbefore hafter => ?_,
    fun s u op r hs hop hd hu => ?_, fun s u hu hbefore hafter => ?_⟩
  · exact step_of_move hm
  · obtain h | ⟨-, hrise⟩ | ⟨h, -⟩ := undefSeen_cases hu
    · simp [h, hbefore] at hafter
    · exact hrise
    · simp [h] at hafter
  · obtain rfl := Host.Outcome.next.inj ((step_of_undefined s hs hop hd).symm.trans hu)
    simp
  · obtain h | ⟨h, -⟩ | ⟨-, hclears⟩ := undefSeen_cases hu
    · simp [h, hbefore] at hafter
    · simp [h] at hafter
    · exact hclears

end Sys2Proof.Machine
end

section
/-! SUPPORT. Stack entries at or above SP are observed by nobody (10_state.md R28): every operation but push and pop
commutes with any change of the stack's entries. -/

namespace Sys2Proof.Machine

variable {s s' t u u' : State} {i : Instr}

/-- The state with other stack entries. -/
def State.withStack (s : State) (st : Vector Word 16) : State := { s with stack := st }

theorem State.advance_withStack (s : State) (st : Vector Word 16) (a : Advance) :
    (s.withStack st).advance a = (s.advance a).withStack st := by
  cases a <;> rfl

theorem State.setAddIFlag_withStack (s : State) (st : Vector Word 16) (o : Bool) :
    (s.withStack st).setAddIFlag o = (s.setAddIFlag o).withStack st := by
  cases o
  · cases h : s.params.fx1eVf <;> simp [State.setAddIFlag, State.withStack, State.setReg, h]
  · rfl

theorem State.strobeTick_withStack (s : State) (st : Vector Word 16) :
    (s.withStack st).strobeTick = s.strobeTick.withStack st := by
  cases hm : s.params.timerMode <;> cases hs : s.status <;> simp [State.strobeTick, State.withStack, State.tick, hm, hs]

theorem State.stepTick_withStack (s : State) (st : Vector Word 16) :
    (s.withStack st).stepTick = s.stepTick.withStack st := by
  cases hm : s.params.timerMode <;> simp [State.stepTick, State.withStack, State.tick, hm]

theorem State.completeWait_withStack (s : State) (st : Vector Word 16) (m : Word) :
    (s.withStack st).completeWait m = (s.completeWait m).withStack st := by
  cases hm : s.params.timerMode <;>
    simp [State.completeWait, State.stepTick, State.tick, State.withStack, State.setReg, hm]

theorem State.finishStep_withStack (s : State) (st : Vector Word 16) :
    (s.withStack st).finishStep = s.finishStep.withStack st := by
  cases hs : s.status
  case run =>
    rw [State.finishStep_run s hs, State.finishStep_run (s.withStack st) hs, State.stepTick_withStack]
    rfl
  all_goals simp [State.finishStep, State.withStack, hs]

theorem State.frameAck_withStack (s : State) (st : Vector Word 16) :
    (s.withStack st).frameAck = s.frameAck.withStack st := by
  cases hs : s.status <;> simp [State.frameAck, State.withStack, hs]

theorem State.keyRelease_withStack (s : State) (st : Vector Word 16) (m : Word) :
    (s.withStack st).keyRelease m = (s.keyRelease m).withStack st := by
  obtain ⟨hw, hr, hm, h⟩ | ⟨hno, h⟩ := s.keyRelease_cases m <;> rw [h]
  · rw [← State.completeWait_withStack]
    exact if_pos ⟨hw, hr, hm⟩
  · exact if_neg hno

theorem State.loadProgram_withStack (s : State) (st : Vector Word 16) (blob : List Byte) :
    (s.withStack st).loadProgram blob = (s.loadProgram blob).withStack st := by
  unfold State.loadProgram
  split <;> rfl

/-- A meaning answers the same on both states, but for the stack's entries, which it leaves. -/
theorem exec_withStack (hp : Part.stack ∉ i.partsWritten) (h : exec i s = .next t) (st : Vector Word 16) :
    exec i (s.withStack st) = .next (t.withStack st) := by
  by_cases hr : i.RaisesIn s
  · obtain ⟨f, hf, hs⟩ := exec_raises i s hr
    obtain ⟨g, hg, hs'⟩ := exec_raises i (s.withStack st) hr
    obtain rfl := exec_unique hs h
    rw [hs']
    simp [State.halt, State.withStack, hf, hg]
  cases i
  case ret | call => exact absurd (by simp [Instr.partsWritten]) hp
  case skipIfEqual | skipIfNotEqual | skipIfVxEqVy | skipIfVxNeVy | skipIfKeyDown | skipIfKeyUp =>
    obtain rfl := Host.Outcome.next.inj h
    exact congrArg Host.Outcome.next (s.advance_withStack st _)
  case draw x y n =>
    have hf := s.accessFault_none_of_inside hr
    obtain rfl := exec_unique (exec_draw s x y n hf) h
    exact exec_draw (s.withStack st) x y n hf
  case storeBCD x =>
    have hf := s.accessFault_none_of_inside hr
    obtain rfl := exec_unique (exec_storeBCD s x hf) h
    exact exec_storeBCD (s.withStack st) x hf
  case storeRegisters x =>
    have hf := s.accessFault_none_of_inside hr
    obtain rfl := exec_unique (exec_storeRegisters s x hf) h
    exact exec_storeRegisters (s.withStack st) x hf
  case loadRegisters x =>
    have hf := s.accessFault_none_of_inside hr
    obtain rfl := exec_unique (exec_loadRegisters s x hf) h
    exact exec_loadRegisters (s.withStack st) x hf
  all_goals obtain rfl := Host.Outcome.next.inj h
  case addToI x =>
    exact congrArg (fun w => Host.Outcome.next (State.advance w .next)) ((s.setI _).setAddIFlag_withStack st _)
  all_goals exact rfl

/-- The states that differ from `s` in dead entries at most are `s` with other entries that agree on the live ones. -/
theorem sameButDeadStack_iff :
    SameButDeadStack s s' ↔
      ∃ st : Vector Word 16, s' = s.withStack st ∧ ∀ k : Fin 16, k.val < s.sp.val → st[k] = s.stack[k] :=
  ⟨fun h => ⟨s'.stack, h⟩, fun ⟨_, h, hlive⟩ => by subst h; exact ⟨rfl, hlive⟩⟩

/-- An operation that commutes with other stack entries, leaves them, and makes none live. -/
theorem SameButDeadStack.map (h : SameButDeadStack s s') (f : State → State)
    (hf : ∀ st, f (s.withStack st) = (f s).withStack st)
    (hkeep : (f s).stack = s.stack ∧ (f s).sp.val ≤ s.sp.val) : SameButDeadStack (f s) (f s') := by
  obtain ⟨st, rfl, hlive⟩ := sameButDeadStack_iff.1 h
  obtain ⟨hstack, hsp⟩ := hkeep
  rw [hf]
  exact ⟨rfl, fun k hk => by rw [hstack]; exact hlive k (by omega)⟩

theorem SameButDeadStack.atInstant (h : SameButDeadStack s s') : SameButDeadStack s.atInstant s'.atInstant :=
  h.map State.atInstant (fun _ => rfl) ⟨rfl, le_rfl⟩

theorem SameButDeadStack.finishStep (h : SameButDeadStack s s') : SameButDeadStack s.finishStep s'.finishStep :=
  h.map State.finishStep s.finishStep_withStack ⟨by simp, by simp⟩

theorem SameButDeadStack.loadProgram (h : SameButDeadStack s s') (blob : List Byte) :
    SameButDeadStack (s.loadProgram blob) (s'.loadProgram blob) :=
  h.map (State.loadProgram · blob) (s.loadProgram_withStack · blob) <| by
    obtain ⟨-, hload⟩ | ⟨-, hload⟩ := s.loadProgram_cases blob <;> rw [hload]
    · exact ⟨rfl, le_rfl⟩
    · exact ⟨rfl, Nat.zero_le _⟩

theorem SameButDeadStack.keyRelease (h : SameButDeadStack s s') (m : Word) :
    SameButDeadStack (s.keyRelease m) (s'.keyRelease m) :=
  h.map (State.keyRelease · m) (s.keyRelease_withStack · m) <| by
    obtain ⟨-, -, -, hkey⟩ | ⟨-, hkey⟩ := s.keyRelease_cases m <;> simp [hkey]

theorem SameButDeadStack.strobeTick (h : SameButDeadStack s s') : SameButDeadStack s.strobeTick s'.strobeTick :=
  h.map State.strobeTick s.strobeTick_withStack <| by
    obtain ⟨-, -, htick⟩ | ⟨-, htick⟩ := s.strobeTick_cases <;> simp [htick]

theorem SameButDeadStack.frameAck (h : SameButDeadStack s s') : SameButDeadStack s.frameAck s'.frameAck :=
  h.map State.frameAck s.frameAck_withStack <| by
    obtain ⟨-, hack⟩ | ⟨-, hack⟩ := s.frameAck_cases <;> simp [hack]

/-- An execute phase carries the relation along: a Return reads a live entry, a Call writes the one it makes live. -/
theorem SameButDeadStack.exec (h : SameButDeadStack s s') (ht : Machine.exec i s = .next t) :
    ∃ t', Machine.exec i s' = .next t' ∧ SameButDeadStack t t' := by
  obtain ⟨st, rfl, hlive⟩ := sameButDeadStack_iff.1 h
  by_cases hp : Part.stack ∈ i.partsWritten
  · obtain rfl | ⟨nnn, rfl⟩ := stack_mem_partsWritten.1 hp
    · obtain ⟨hsp, rfl⟩ | ⟨k, hk, rfl⟩ := exec_ret_cases ht
      · exact ⟨_, exec_ret_empty _ hsp, rfl, hlive⟩
      · refine ⟨_, exec_ret (s.withStack st) k hk, ?_, fun j hj => ?_⟩
        · have hpop : (s.withStack st).stack[k] = s.stack[k] := hlive k (by omega)
          rw [hpop]
          rfl
        · exact hlive j (by simp only [Fin.val_castSucc] at hj; omega)
    · obtain ⟨hsp, rfl⟩ | ⟨hsp, rfl⟩ := exec_call_cases ht
      · exact ⟨_, exec_call_full _ nnn hsp, rfl, hlive⟩
      · refine ⟨_, exec_call (s.withStack st) nnn hsp, rfl, fun j hj => ?_⟩
        simp only [Fin.getElem_fin, State.withStack, Vector.getElem_set]
        split
        · rfl
        · exact hlive j (by simp only at hj; omega)
  · obtain ⟨hsp, hstack⟩ := exec_same ht hp (by decide)
    refine ⟨_, exec_withStack hp ht st, rfl, ?_⟩
    rw [hsp, hstack]
    exact hlive

/-- An instant carries the relation along. -/
theorem SameButDeadStack.step (h : SameButDeadStack s s') (hu : Machine.step s = .next u) :
    ∃ u', Machine.step s' = .next u' ∧ SameButDeadStack u u' := by
  have h' := h.atInstant
  obtain ⟨st, rfl, -⟩ := sameButDeadStack_iff.1 h
  cases InstantTo.of_step hu with
  | fetchFault hs hpc =>
    exact ⟨_, step_of_fetch_fault (s.withStack st) hs hpc, h'.map (State.halt · _) (fun _ => rfl) ⟨rfl, le_rfl⟩⟩
  | undefined hs hop hd =>
    exact ⟨_, step_of_undefined (s.withStack st) hs hop hd,
      (h'.map (State.undefinedOpcode · _) (fun _ => rfl) ⟨rfl, le_rfl⟩).finishStep⟩
  | instruction hs hop hd ht =>
    obtain ⟨t', ht', hsame⟩ := h'.exec ht
    exact ⟨_, step_of_decodes (s.withStack st) hs hop hd ht', hsame.finishStep⟩
  | hold hq hrun => exact ⟨_, step_of_not_stepping (s.withStack st) hq hrun, h'⟩
  | reset hm =>
    exact ⟨_, step_of_move (s := s.withStack st) hm, h'.map State.powerOnReset (fun _ => rfl) ⟨rfl, Nat.zero_le _⟩⟩
  | load hm =>
    exact ⟨_, step_of_move (s := s.withStack st) hm, h'.loadProgram _⟩
  | setRunEnable hm =>
    exact ⟨_, step_of_move (s := s.withStack st) hm,
      h'.map (fun w => { w with runEnable := _ }) (fun _ => rfl) ⟨rfl, le_rfl⟩⟩
  | setKeysDown hm =>
    exact ⟨_, step_of_move (s := s.withStack st) hm,
      h'.map (fun w => { w with keysDown := _ }) (fun _ => rfl) ⟨rfl, le_rfl⟩⟩
  | keyRelease hm => exact ⟨_, step_of_move (s := s.withStack st) hm, h'.keyRelease _⟩
  | tick hm => exact ⟨_, step_of_move (s := s.withStack st) hm, h'.strobeTick⟩
  | frameAck hm => exact ⟨_, step_of_move (s := s.withStack st) hm, h'.frameAck⟩
  | writeHostStatus hm => exact ⟨_, step_of_move (s := s.withStack st) hm, h'⟩

/-- Settles O26: the step carries the relation along, and neither output reads the stack. -/
theorem deadStackEntriesAreUnobservable : Obligations.DeadStackEntriesAreUnobservable := by
  intro s s' u u' h hu hu'
  obtain ⟨w, hw, hsame⟩ := h.step hu
  obtain rfl := Host.Outcome.next.inj (hw.symm.trans hu')
  exact ⟨hsame, (congrArg State.hostStatus hsame.1).symm, (congrArg State.snapshot hsame.1).symm⟩

end Sys2Proof.Machine
end

section
/-! SUPPORT. What an instruction does to the bytes at I (20_memory.md R52, R55, R56, R61, R62): past the end of memory it
halts, a store stays inside its bytes, and the next fetch reads what was stored. -/

namespace Sys2Proof.Machine

variable {s t : State} {i : Instr} {x : Reg}

/-! The bounds of an access (R52, R161) -/

/-- An instruction that moves bytes at I raises exactly where they pass the end of memory. -/
theorem raisesIn_iff_of_moves (hm : 0 < i.bytesMoved) : i.RaisesIn s ↔ 0xFFE < s.i.toNat + i.bytesMoved - 1 := by
  cases i
  case ret | call => exact absurd hm (Nat.lt_irrefl 0)
  all_goals exact and_iff_right hm

theorem raiseCode_of_moves (hm : 0 < i.bytesMoved) : i.raiseCode = 6 := by
  cases i
  case ret | call => exact absurd hm (Nat.lt_irrefl 0)
  all_goals rfl

/-- Settles O29: such an instruction raises, so it enters HALTED with its code, AddressOutOfRange. -/
theorem accessPastMemoryHalts : Obligations.AccessPastMemoryHalts := by
  intro i s hm hpast
  obtain ⟨f, hf, hu⟩ := exec_raises i s ((raisesIn_iff_of_moves hm).2 hpast)
  exact ⟨_, hu, raiseCode_of_moves hm ▸ hf ▸ halt_haltsWith s f⟩

/-! The bytes a store leaves and the bytes it writes (R55, R56) -/

theorem State.storeAtI_memUnchangedOutside (s : State) (bytes : List Byte) :
    MemUnchangedOutside s.i.toNat bytes.length s (s.storeAtI bytes) := fun b hb =>
  Memory.read_writeBytes_outside s.mem _ bytes b (by omega)

theorem State.byte_storeAtI_inside (hw : Memory.wf s.params s.mem) {bytes : List Byte} {k : Nat} (hk : k < bytes.length)
    (h : s.i.toNat + bytes.length ≤ 0xFFF) : (s.storeAtI bytes).byte (s.i.toNat + k) = bytes[k] :=
  Memory.read_writeBytes_inside hw _ bytes k hk h

theorem mem_mem_partsWritten :
    Part.mem ∈ i.partsWritten ↔ (∃ x, i = .storeBCD x) ∨ ∃ x, i = .storeRegisters x := by
  cases i <;> simp [Instr.partsWritten]

/-- What StoreBCD does, said once: it raises past the end of memory, or stores the three digits at I (R164). -/
theorem exec_storeBCD_cases (h : exec (.storeBCD x) s = .next t) :
    (0xFFE < s.i.toNat + 2 ∧ ∃ f, t = s.halt f) ∨
      (s.i.toNat + 2 ≤ 0xFFE ∧ t = (s.storeAtI (bcdDigits (s.reg x))).advance .next) := by
  by_cases hi : s.i.toNat + 2 ≤ 0xFFE
  · exact .inr ⟨hi, exec_unique h (exec_storeBCD s x (s.accessFault_none 3 (.inr hi)))⟩
  · have hpast : 0xFFE < s.i.toNat + 2 := by omega
    exact .inl ⟨hpast, _, exec_unique h (exec_storeBCD_fault s x (s.accessFault_some 3 (by decide) hpast))⟩

/-- What StoreRegisters does, said once: it raises past the end of memory, or stores V0..Vx at I and moves I past them
(R165). -/
theorem exec_storeRegisters_cases (h : exec (.storeRegisters x) s = .next t) :
    (0xFFE < s.i.toNat + x.toNat ∧ ∃ f, t = s.halt f) ∨
      (s.i.toNat + x.toNat ≤ 0xFFE ∧ t = ((s.storeAtI (s.regsUpTo x)).bumpI x).advance .next) := by
  by_cases hi : s.i.toNat + x.toNat ≤ 0xFFE
  · exact .inr ⟨hi, exec_unique h (exec_storeRegisters s x (s.accessFault_none _ (.inr hi)))⟩
  · have hpast : 0xFFE < s.i.toNat + x.toNat := by omega
    exact .inl ⟨hpast, _, exec_unique h (exec_storeRegisters_fault s x (s.accessFault_some _ (Nat.succ_pos _) hpast))⟩

/-- Settles O28: the two stores leave the bytes outside the ones they write, and no other instruction lists memory. -/
theorem storesStayInsideTheirBytes : Obligations.StoresStayInsideTheirBytes := by
  intro i s t h
  by_cases hp : Part.mem ∈ i.partsWritten
  · obtain ⟨x, rfl⟩ | ⟨x, rfl⟩ := mem_mem_partsWritten.1 hp
    · obtain ⟨-, f, rfl⟩ | ⟨-, rfl⟩ := exec_storeBCD_cases h
      · exact fun _ _ => rfl
      · exact s.storeAtI_memUnchangedOutside (bcdDigits (s.reg x))
    · obtain ⟨-, f, rfl⟩ | ⟨-, rfl⟩ := exec_storeRegisters_cases h
      · exact fun _ _ => rfl
      · have hstore := s.storeAtI_memUnchangedOutside (s.regsUpTo x)
        rw [s.regsUpTo_length x] at hstore
        exact hstore
  · exact fun a _ => exec_same h hp (by decide) a

/-! The fetch after a store (R61, R62) -/

theorem fetch_of_fetches {op : Word} (h : Fetches s op) : fetch s = .ok op := by
  obtain ⟨hpc, rfl⟩ := h
  simp only [fetch, State.fetchFault, if_neg (Nat.not_lt_of_le (show s.pc.toNat + 1 ≤ memMax from hpc))]

/-- With I at the opcode after the one at PC, the fetch after a step that completes reads the two bytes at I. -/
theorem fetch_at_i (hpc : t.pc = s.pc + 2) (hi : s.i.toNat = s.pc.toNat + 2) (hle : s.i.toNat + 1 ≤ 0xFFE) :
    fetch t = .ok (opcodeOfBytes (t.byte s.i.toNat) (t.byte (s.i.toNat + 1))) := by
  have hfetch : t.pc.toNat = s.i.toNat := by rw [hpc]; bv_omega
  exact fetch_of_fetches ⟨hfetch ▸ hle, by rw [hfetch]⟩

/-- The byte at I + r after a StoreRegisters that completes, for memory in canonical form (R165). -/
theorem byte_storeRegisters (hw : Memory.wf s.params s.mem) (hi : s.i.toNat + x.toNat ≤ 0xFFE)
    (h : exec (.storeRegisters x) s = .next t) (r : Reg) :
    t.byte (s.i.toNat + r.toNat) = if r.toNat ≤ x.toNat then s.reg r else s.byte (s.i.toNat + r.toNat) := by
  obtain ⟨hpast, -⟩ | ⟨-, rfl⟩ := exec_storeRegisters_cases h
  · omega
  have hlen := s.regsUpTo_length x
  split
  · rw [← s.regsUpTo_getElem x r (by omega)]
    exact State.byte_storeAtI_inside hw (by omega) (by omega)
  · exact s.storeAtI_memUnchangedOutside _ _ (by omega)

/-- The byte at I + k after a StoreBCD that completes, for memory in canonical form (R164). -/
theorem byte_storeBCD (hw : Memory.wf s.params s.mem) (hi : s.i.toNat + 2 ≤ 0xFFE)
    (h : exec (.storeBCD x) s = .next t) {k : Nat} (hk : k < 3) :
    t.byte (s.i.toNat + k) = (bcdDigits (s.reg x))[k] := by
  obtain ⟨hpast, -⟩ | ⟨-, rfl⟩ := exec_storeBCD_cases h
  · omega
  · exact State.byte_storeAtI_inside hw hk (Nat.succ_le_succ hi)

theorem pc_storeRegisters (hi : s.i.toNat + x.toNat ≤ 0xFFE) (h : exec (.storeRegisters x) s = .next t) :
    t.pc = s.pc + 2 := by
  obtain ⟨hpast, -⟩ | ⟨-, rfl⟩ := exec_storeRegisters_cases h
  · omega
  · rfl

theorem pc_storeBCD (hi : s.i.toNat + 2 ≤ 0xFFE) (h : exec (.storeBCD x) s = .next t) : t.pc = s.pc + 2 := by
  obtain ⟨hpast, -⟩ | ⟨-, rfl⟩ := exec_storeBCD_cases h
  · omega
  · rfl

/-- Settles O51: both fetches read the bytes at I and I + 1, where StoreRegisters has put V0, and V1 if x is not 0, and
StoreBCD the first two digits. -/
theorem nextFetchSeesTheStore : Obligations.NextFetchSeesTheStore := by
  refine ⟨fun x s t hw hle hi h => ?_, fun x s t hw hle hi h => ?_⟩
  · have hx : s.i.toNat + x.toNat ≤ 0xFFE := by omega
    have hbyte := byte_storeRegisters hw hx h
    have hhigh : t.byte s.i.toNat = s.reg 0 := (hbyte 0).trans (if_pos (Nat.zero_le _))
    have hlow : t.byte (s.i.toNat + 1) = if x = 0 then s.byte (s.i.toNat + 1) else s.reg 1 := by
      by_cases hx0 : x = 0
      · subst hx0
        exact hbyte 1
      · have hpos : 1 ≤ x.toNat := Nat.pos_of_ne_zero fun h0 => hx0 (BitVec.eq_of_toNat_eq h0)
        rw [if_neg hx0]
        exact (hbyte 1).trans (if_pos hpos)
    rw [fetch_at_i (pc_storeRegisters hx h) hi (by omega), hhigh, hlow]
  · have hhigh : t.byte s.i.toNat = BitVec.ofNat 8 ((s.reg x).toNat / 100) := byte_storeBCD hw hle h (k := 0) (by decide)
    have hlow : t.byte (s.i.toNat + 1) = BitVec.ofNat 8 ((s.reg x).toNat / 10 % 10) :=
      byte_storeBCD hw hle h (k := 1) (by decide)
    have hreg := (s.reg x).isLt
    refine ⟨_, fetch_at_i (pc_storeBCD hle h) hi (by omega), ?_, ?_⟩
    · rw [opcodeOfBytes_high, hhigh, BitVec.toNat_ofNat]
      omega
    · rw [opcodeOfBytes_low, hlow, BitVec.toNat_ofNat]
      omega

end Sys2Proof.Machine
end

section
/-! SUPPORT. The decoder and the encoder are inverse (30_encoding.md R71, R72, R75). -/

namespace Sys2Proof

/-! From an instruction to its opcode and back -/

/-- Decoding reads back the fields `encode` packed, format by format (R72). -/
theorem decode_encode (i : Instr) : decode (encode i) = .ok i := by
  cases i
  -- The two whole opcodes.
  case clearScreen | ret => rfl
  -- Formats A, XK and XYN: the top nibble alone names the operation.
  case jump | call | setI | jumpPlusV0 => simp [decode, encode]
  case skipIfEqual | skipIfNotEqual | loadImmediate | addImmediate | random | draw => simp [decode, encode]
  -- Format XY: a function nibble.
  case skipIfVxEqVy => simp [decode, encode, decodeGroup5]
  case skipIfVxNeVy => simp [decode, encode, decodeGroup9]
  case move | or | and | xor | add | subXY | shiftRight | subYX | shiftLeft => simp [decode, encode, decodeGroup8]
  -- Format X: a function byte.
  case skipIfKeyDown | skipIfKeyUp => simp [decode, encode, decodeGroupE]
  all_goals simp [decode, encode, decodeGroupF]

/-- Settles O1, format by format. -/
theorem decodeOfEncodeIsIdentity : Obligations.DecodeOfEncodeIsIdentity := decode_encode

/-! From an opcode to an instruction and back: an opcode is the packing of its own fields -/

variable {op : Word} {i : Instr}

theorem encodeA_fields (op : Word) : encodeA (fieldT op) (fieldNNN op) = op := by
  apply BitVec.eq_of_getLsbD_eq; intro k hk
  interval_cases k <;> simp [encodeA, fieldT, fieldNNN]

theorem encodeXK_fields (op : Word) : encodeXK (fieldT op) (fieldX op) (fieldKK op) = op := by
  apply BitVec.eq_of_getLsbD_eq; intro k hk
  interval_cases k <;> simp [encodeXK, fieldT, fieldX, fieldKK]

theorem encodeXYN_fields (op : Word) : encodeXYN (fieldT op) (fieldX op) (fieldY op) (fieldN op) = op := by
  apply BitVec.eq_of_getLsbD_eq; intro k hk
  interval_cases k <;> simp [encodeXYN, fieldT, fieldX, fieldY, fieldN]

/-- The same with the fields the decoder has tested written as it tested them. -/
theorem encodeA_of_fields {t : BitVec 4} (ht : (fieldT op).toNat = t.toNat) : encodeA t (fieldNNN op) = op :=
  BitVec.eq_of_toNat_eq ht ▸ encodeA_fields op

theorem encodeXK_of_fields {t : BitVec 4} {kk : Byte} (ht : (fieldT op).toNat = t.toNat)
    (hkk : (fieldKK op).toNat = kk.toNat) : encodeXK t (fieldX op) kk = op :=
  BitVec.eq_of_toNat_eq ht ▸ BitVec.eq_of_toNat_eq hkk ▸ encodeXK_fields op

theorem encodeXYN_of_fields {t : BitVec 4} {n : BitVec 4} (ht : (fieldT op).toNat = t.toNat)
    (hn : (fieldN op).toNat = n.toNat) : encodeXYN t (fieldX op) (fieldY op) n = op :=
  BitVec.eq_of_toNat_eq ht ▸ BitVec.eq_of_toNat_eq hn ▸ encodeXYN_fields op

/-! The groups that test more than the top nibble -/

theorem encode_of_decodeGroup0 (h : decodeGroup0 op = .ok i) : encode i = op := by
  unfold decodeGroup0 at h
  split_ifs at h with h1 h2
  · cases h; exact h1.symm
  · cases h; exact h2.symm

theorem encode_of_decodeGroup5 (ht : (fieldT op).toNat = 0x5) (h : decodeGroup5 op = .ok i) : encode i = op := by
  unfold decodeGroup5 at h
  split_ifs at h with hn
  cases h
  exact encodeXYN_of_fields ht (congrArg BitVec.toNat hn)

theorem encode_of_decodeGroup9 (ht : (fieldT op).toNat = 0x9) (h : decodeGroup9 op = .ok i) : encode i = op := by
  unfold decodeGroup9 at h
  split_ifs at h with hn
  cases h
  exact encodeXYN_of_fields ht (congrArg BitVec.toNat hn)

theorem encode_of_decodeGroup8 (ht : (fieldT op).toNat = 0x8) (h : decodeGroup8 op = .ok i) : encode i = op := by
  unfold decodeGroup8 at h
  split at h
  all_goals cases h
  all_goals exact encodeXYN_of_fields ht ‹(fieldN op).toNat = _›

theorem encode_of_decodeGroupE (ht : (fieldT op).toNat = 0xE) (h : decodeGroupE op = .ok i) : encode i = op := by
  unfold decodeGroupE at h
  split at h
  all_goals cases h
  all_goals exact encodeXK_of_fields ht ‹(fieldKK op).toNat = _›

theorem encode_of_decodeGroupF (ht : (fieldT op).toNat = 0xF) (h : decodeGroupF op = .ok i) : encode i = op := by
  unfold decodeGroupF at h
  split at h
  all_goals cases h
  all_goals exact encodeXK_of_fields ht ‹(fieldKK op).toNat = _›

/-- The last arm of `decode`: a top nibble that is none of 0 to E is F. -/
theorem fieldT_eq_F (op : Word) (h : ∀ t < 0xF, (fieldT op).toNat ≠ t) : (fieldT op).toNat = 0xF := by
  by_contra hF
  exact h _ (by have := (fieldT op).isLt; omega) rfl

/-- Every arm of `decode` keeps the fields it has not tested, and `encode` writes the tested ones back (R75, R78). -/
theorem encode_of_decode (h : decode op = .ok i) : encode i = op := by
  unfold decode at h
  split at h
  case h_1 => exact encode_of_decodeGroup0 h
  case h_6 ht => exact encode_of_decodeGroup5 ht h
  case h_9 ht => exact encode_of_decodeGroup8 ht h
  case h_10 ht => exact encode_of_decodeGroup9 ht h
  case h_15 ht => exact encode_of_decodeGroupE ht h
  case h_16 => exact encode_of_decodeGroupF (fieldT_eq_F op (by intro t ht; interval_cases t <;> assumption)) h
  all_goals cases h
  case h_2 ht | h_3 ht | h_11 ht | h_12 ht => exact encodeA_of_fields ht
  case h_14 ht => exact encodeXYN_of_fields ht rfl
  all_goals exact encodeXK_of_fields ‹(fieldT op).toNat = _› rfl

/-- Settles O2, arm by arm of the decoder. -/
theorem encodeOfDecodeIsIdentity : Obligations.EncodeOfDecodeIsIdentity := fun _ _ => encode_of_decode

/-- Settles O5: each word is the encoding of its instruction. -/
theorem sampleWordsDecodeAsPatternsSay : Obligations.SampleWordsDecodeAsPatternsSay :=
  ⟨decode_encode .ret, decode_encode (.call 0x340), decode_encode (.loadImmediate 1 0x33), decode_encode (.subXY 1 2),
    decode_encode (.setI 0x2F0), decode_encode (.draw 0 1 5), decode_encode (.skipIfKeyDown 1),
    decode_encode (.waitKey 3), decode_encode (.loadRegisters 2), by decide⟩

end Sys2Proof
end

section
/-! SUPPORT. Which opcodes decode and which are Undefined (30_encoding.md R76), and how many there are of each. -/

namespace Sys2Proof

variable {op : Word}

/-! The three numbers R76 is stated in are the fields of R71 -/

theorem shiftRight_12_toNat (op : Word) : (op >>> 12).toNat = (fieldT op).toNat := by
  have := op.isLt
  simp only [fieldT, BitVec.toNat_ushiftRight, BitVec.extractLsb'_toNat, Nat.shiftRight_eq_div_pow]
  omega

theorem toNat_mod_16 (op : Word) : op.toNat % 16 = (fieldN op).toNat := by simp [fieldN]

theorem toNat_mod_256 (op : Word) : op.toNat % 256 = (fieldKK op).toNat := by simp [fieldKK]

/-! What each group of the decoder accepts -/

theorem decodeGroup0_ok_iff : (∃ i, decodeGroup0 op = .ok i) ↔ op = 0x00E0#16 ∨ op = 0x00EE#16 := by
  unfold decodeGroup0
  split_ifs <;> simp [*]

theorem decodeGroup5_ok_iff : (∃ i, decodeGroup5 op = .ok i) ↔ (fieldN op).toNat = 0 := by
  unfold decodeGroup5
  split_ifs with hn <;> simpa [← BitVec.toNat_inj] using hn

theorem decodeGroup8_ok_iff :
    (∃ i, decodeGroup8 op = .ok i) ↔ (fieldN op).toNat ∉ [0x8, 0x9, 0xA, 0xB, 0xC, 0xD, 0xF] := by
  have hn := (fieldN op).isLt
  unfold decodeGroup8
  split
  case h_10 => simp_all; omega
  all_goals simp [*]

theorem decodeGroup9_ok_iff : (∃ i, decodeGroup9 op = .ok i) ↔ (fieldN op).toNat = 0 := by
  unfold decodeGroup9
  split_ifs with hn <;> simpa [← BitVec.toNat_inj] using hn

theorem decodeGroupE_ok_iff : (∃ i, decodeGroupE op = .ok i) ↔ (fieldKK op).toNat ∈ [0x9E, 0xA1] := by
  unfold decodeGroupE
  split <;> simp_all

theorem decodeGroupF_ok_iff :
    (∃ i, decodeGroupF op = .ok i) ↔
      (fieldKK op).toNat ∈ [0x07, 0x0A, 0x15, 0x18, 0x1E, 0x29, 0x33, 0x55, 0x65] := by
  unfold decodeGroupF
  split <;> simp_all

/-- The decoder accepts the opcodes outside the six classes of R76: under six top nibbles what the group accepts, under
the others every opcode. -/
theorem decode_ok_iff_wellFormedWord : (∃ i, decode op = .ok i) ↔ wellFormedWord op = true := by
  simp only [wellFormedWord, shiftRight_12_toNat, toNat_mod_16, toNat_mod_256]
  unfold decode
  split
  case h_1 ht => simp [ht, decodeGroup0_ok_iff]
  case h_6 ht => simp [ht, decodeGroup5_ok_iff]
  case h_9 ht => simp [ht, decodeGroup8_ok_iff]
  case h_10 ht => simp [ht, decodeGroup9_ok_iff]
  case h_15 ht => simp [ht, decodeGroupE_ok_iff]
  case h_16 =>
    have ht := fieldT_eq_F op (by intro t ht; interval_cases t <;> assumption)
    simp [ht, decodeGroupF_ok_iff]
  all_goals simp [*]

/-! The same by the low bits that count under each top nibble: the form in which the opcodes are counted and held
against the rows of the opcode table -/

/-- How many low bits of an opcode tell whether it is Undefined, by its top nibble. -/
def tailWidth : Nat → Nat
  | 0x0 => 12
  | 0x5 | 0x8 | 0x9 => 4
  | 0xE | 0xF => 8
  | _ => 0

/-- The values of those bits with which an opcode is not Undefined, by its top nibble. -/
def definedTails : Nat → List Nat
  | 0x0 => [0x0E0, 0x0EE]
  | 0x8 => [0x0, 0x1, 0x2, 0x3, 0x4, 0x5, 0x6, 0x7, 0xE]
  | 0xE => [0x9E, 0xA1]
  | 0xF => [0x07, 0x0A, 0x15, 0x18, 0x1E, 0x29, 0x33, 0x55, 0x65]
  | _ => [0]

/-- The low bits of an opcode that tell whether it is Undefined. -/
def opcodeTail (op : Word) : Nat := op.toNat % 2 ^ tailWidth (fieldT op).toNat

theorem wellFormedWord_iff_opcodeTail : wellFormedWord op = true ↔ opcodeTail op ∈ definedTails (fieldT op).toNat := by
  have hT := shiftRight_12_toNat op
  have htop : (op >>> 12).toNat = op.toNat / 4096 := by rw [BitVec.toNat_ushiftRight, Nat.shiftRight_eq_div_pow]
  have hlt := (fieldT op).isLt
  simp only [wellFormedWord, opcodeTail, hT]
  generalize (fieldT op).toNat = t at *
  interval_cases t
  -- Top nibble 0: the whole opcode is its own tail.
  · have hop : op.toNat % 4096 = op.toNat := by omega
    simp [tailWidth, definedTails, hop, ← BitVec.toNat_inj]
  -- Top nibble 8, the eighth goal left: R76 lists the Undefined low nibbles, `definedTails` the others.
  pick_goal 8
  · simp [tailWidth, definedTails]
    omega
  all_goals simp [tailWidth, definedTails, Nat.mod_one]

/-! Counting -/

theorem countP_range_mul {p : Nat → Bool} {n : Nat} (hp : Function.Periodic p n) (m : Nat) :
    (List.range (m * n)).countP p = m * (List.range n).countP p := by
  induction m with
  | zero => simp
  | succ m ih =>
    have hshift : (fun k => p (m * n + k)) = p := funext fun k => by rw [Nat.add_comm]; exact hp.nat_mul m k
    rw [Nat.succ_mul, List.range_add, List.countP_append, ih, List.countP_map, Function.comp_def, hshift, Nat.succ_mul]

theorem countP_range_not_contains {l : List Nat} {n : Nat} (hl : l.Nodup) (hn : ∀ a ∈ l, a < n) :
    (List.range n).countP (fun k => !l.contains k) = n - l.length := by
  have hperm : ((List.range n).filter l.contains).Perm l :=
    (List.perm_ext_iff_of_nodup (List.nodup_range.filter _) hl).2 fun a => by simpa using hn a
  have hsplit := List.length_eq_countP_add_countP (l := List.range n) l.contains
  rw [List.length_range, List.countP_eq_length_filter, hperm.length_eq] at hsplit
  simp only [Bool.not_eq_true, Bool.decide_eq_false] at hsplit
  omega

theorem wellFormedWord_ofNat {t k : Nat} (ht : t < 16) (hk : k < 4096) :
    wellFormedWord (BitVec.ofNat 16 (4096 * t + k)) = (definedTails t).contains (k % 2 ^ tailWidth t) := by
  have hT : (fieldT (BitVec.ofNat 16 (4096 * t + k))).toNat = t := by
    simp only [fieldT, BitVec.extractLsb'_toNat, BitVec.toNat_ofNat, Nat.shiftRight_eq_div_pow]
    omega
  have htail : (4096 * t + k) % 65536 % 2 ^ tailWidth t = k % 2 ^ tailWidth t := by
    interval_cases t <;> simp only [tailWidth] <;> omega
  rw [Bool.eq_iff_iff, wellFormedWord_iff_opcodeTail, opcodeTail, hT, BitVec.toNat_ofNat, List.contains_iff_mem]
  exact htail ▸ Iff.rfl

/-- Under the top nibble t the defined opcodes repeat with period `2 ^ tailWidth t`, and a period holds one for each
entry of `definedTails t`. -/
theorem countP_undefined {t : Nat} (ht : t < 16) :
    (List.range 4096).countP (fun k => !wellFormedWord (BitVec.ofNat 16 (4096 * t + k))) =
      2 ^ (12 - tailWidth t) * (2 ^ tailWidth t - (definedTails t).length) := by
  have hsize : 4096 = 2 ^ (12 - tailWidth t) * 2 ^ tailWidth t := by interval_cases t <;> rfl
  have hnodup : (definedTails t).Nodup := by interval_cases t <;> decide
  have hlt : ∀ a ∈ definedTails t, a < 2 ^ tailWidth t := by interval_cases t <;> decide
  have hperiodic : Function.Periodic (fun k => !(definedTails t).contains (k % 2 ^ tailWidth t)) (2 ^ tailWidth t) :=
    fun k => by simp only [Nat.add_mod_right]
  calc (List.range 4096).countP (fun k => !wellFormedWord (BitVec.ofNat 16 (4096 * t + k)))
    _ = (List.range 4096).countP fun k => !(definedTails t).contains (k % 2 ^ tailWidth t) :=
      List.countP_congr fun k hk => by rw [wellFormedWord_ofNat ht (List.mem_range.1 hk)]
    _ = 2 ^ (12 - tailWidth t) *
          (List.range (2 ^ tailWidth t)).countP fun k => !(definedTails t).contains (k % 2 ^ tailWidth t) := by
      conv_lhs => rw [hsize]
      exact countP_range_mul hperiodic _
    _ = 2 ^ (12 - tailWidth t) * (List.range (2 ^ tailWidth t)).countP fun k => !(definedTails t).contains k :=
      congrArg _ (List.countP_congr fun k hk => by rw [Nat.mod_eq_of_lt (List.mem_range.1 hk)])
    _ = _ := by rw [countP_range_not_contains hnodup hlt]

/-- Settles O3: the six classes from the decoder's groups, the counts from the defined opcodes of one period. -/
theorem decodesExactlyTheDefinedOpcodes : Obligations.DecodesExactlyTheDefinedOpcodes := by
  refine ⟨fun _ => decode_ok_iff_wellFormedWord, ?_⟩
  rw [List.map_congr_left fun t ht => countP_undefined (List.mem_range.1 ht)]
  rfl

end Sys2Proof
end

section
/-! SUPPORT. The rows of the opcode table and the decoder (30_encoding.md R75): a row fixes the top nibble and the low
bits that count under it, and no two rows fix the same ones. -/

namespace Sys2Proof

variable {op : Word} {r : OpcodeRow}

/-- Where a row's mask is all ones, an opcode that fits has the row's bits. -/
theorem extractLsb'_of_fits {start len : Nat} (hm : r.mask.extractLsb' start len = BitVec.allOnes len)
    (h : r.fits op = true) : op.extractLsb' start len = r.fixed.extractLsb' start len := by
  rw [← beq_iff_eq.1 h, BitVec.extractLsb'_and, hm, BitVec.and_allOnes]

theorem opcodeTable_masks :
    ∀ r ∈ opcodeTable, r.mask.extractLsb' 12 4 = BitVec.allOnes 4 ∧
      r.mask.extractLsb' 0 (tailWidth (fieldT r.fixed).toNat) = BitVec.allOnes _ := by
  decide

theorem fieldT_opcodeTail_of_fits (hr : r ∈ opcodeTable) (h : r.fits op = true) :
    fieldT op = fieldT r.fixed ∧ opcodeTail op = opcodeTail r.fixed := by
  obtain ⟨htop, htail⟩ := opcodeTable_masks r hr
  have hT : fieldT op = fieldT r.fixed := extractLsb'_of_fits htop h
  have hlow := congrArg BitVec.toNat (extractLsb'_of_fits htail h)
  simp only [BitVec.extractLsb'_toNat, Nat.shiftRight_zero] at hlow
  exact ⟨hT, by rw [opcodeTail, opcodeTail, hT, hlow]⟩

theorem opcodeTable_nodup : (opcodeTable.map fun r => (fieldT r.fixed, opcodeTail r.fixed)).Nodup := by decide

/-- Two rows that an opcode fits fix the same top nibble and opcodeTail, so they are one row. -/
theorem row_unique {r' : OpcodeRow} (hr : r ∈ opcodeTable) (hr' : r' ∈ opcodeTable) (h : r.fits op = true)
    (h' : r'.fits op = true) : r = r' := by
  obtain ⟨hT, htail⟩ := fieldT_opcodeTail_of_fits hr h
  obtain ⟨hT', htail'⟩ := fieldT_opcodeTail_of_fits hr' h'
  exact List.inj_on_of_nodup_map opcodeTable_nodup hr hr' (Prod.ext (hT.symm.trans hT') (htail.symm.trans htail'))

theorem opcodeTable_tails : ∀ r ∈ opcodeTable, opcodeTail r.fixed ∈ definedTails (fieldT r.fixed).toNat := by decide

/-- An opcode that fits a row is not Undefined. -/
theorem wellFormedWord_of_fits (hr : r ∈ opcodeTable) (h : r.fits op = true) : wellFormedWord op = true := by
  obtain ⟨hT, htail⟩ := fieldT_opcodeTail_of_fits hr h
  rw [wellFormedWord_iff_opcodeTail, hT, htail]
  exact opcodeTable_tails r hr

open Laws.Encoding in
/-- The opcode of an instruction fits the row with its mnemonic. -/
theorem encode_fits (i : Instr) : Statement i := by
  cases i
  exacts [clearScreen, ret, jump _, call _, skipIfEqual _ _, skipIfNotEqual _ _, skipIfVxEqVy _ _, loadImmediate _ _,
    addImmediate _ _, move _ _, or _ _, and _ _, xor _ _, add _ _, subXY _ _, shiftRight _ _, subYX _ _,
    shiftLeft _ _, skipIfVxNeVy _ _, setI _, jumpPlusV0 _, random _ _, draw _ _ _, skipIfKeyDown _, skipIfKeyUp _,
    loadDelayTimer _, waitKey _, setDelayTimer _, setSoundTimer _, addToI _, loadFontAddress _, storeBCD _,
    storeRegisters _, loadRegisters _]

/-- Settles O4: one row at most by what the rows fix, the row of i by its encoding, and none but for defined opcodes. -/
theorem everyOpcodeFitsAtMostOneRow : Obligations.EveryOpcodeFitsAtMostOneRow := by
  refine fun op => ⟨fun r hr r' hr' => row_unique hr hr', fun i hi => ?_, fun e he r hr => ?_⟩
  · obtain ⟨r, hr, hrow⟩ := List.any_eq_true.1 (encode_fits i)
    rw [encode_of_decode hi, Bool.and_eq_true, beq_iff_eq] at hrow
    exact ⟨r, hr, hrow⟩
  · refine Bool.eq_false_of_not_eq_true fun hfits => ?_
    obtain ⟨i, hi⟩ := decode_ok_iff_wellFormedWord.2 (wellFormedWord_of_fits hr hfits)
    exact nomatch he.symm.trans hi

end Sys2Proof
end

section
/-! SUPPORT. A step has an outcome in every state, and the shifts do not read their y field. -/

namespace Sys2Proof.Machine

variable {s : State}

/-- The loop's step: its fetch faults, or its opcode is Undefined or runs (R91, R93, R99). -/
theorem exists_next_of_steps (h : Steps s) : ∃ u, step s = .next u := by
  by_cases hpc : 0xFFE ≤ s.pc.toNat
  · exact ⟨_, step_of_fetch_fault s h hpc⟩
  · have hop : Fetches s (opcodeOfBytes (s.byte s.pc.toNat) (s.byte (s.pc.toNat + 1))) := ⟨Nat.lt_of_not_le hpc, rfl⟩
    cases hd : decode (opcodeOfBytes (s.byte s.pc.toNat) (s.byte (s.pc.toNat + 1))) with
    | error r => exact ⟨_, step_of_undefined s h hop hd⟩
    | ok i =>
      obtain ⟨t, ht⟩ := exec_next s.atInstant i
      exact ⟨_, step_of_decodes s h hop hd ht⟩

/-- Settles O21: the loop steps or holds (R98), and every other move of the host answers a next state. -/
theorem stepAlwaysAnswersANextState : Obligations.StepAlwaysAnswersANextState := by
  intro s
  cases hm : (nextMove s).1
  case quiet =>
    by_cases hrun : s.status = .run ∧ s.runEnable = true
    · exact exists_next_of_steps ⟨hm, hrun⟩
    · exact ⟨_, step_of_not_stepping s hm (by simpa [imp_iff_not_or] using hrun)⟩
  all_goals exact ⟨_, step_of_move hm⟩

theorem shiftSource_vx {p : Params} (h : p.shiftSrc = .vx) (x y : Reg) : shiftSource p x y = x := by
  rw [shiftSource, h]

/-- Settles O6: the y field stands only in the shift's source register (R141, R143), which is Vx. -/
theorem shiftIgnoresItsYField : Obligations.ShiftIgnoresItsYField := by
  intro x y y' s h
  simp only [exec_shiftRight, exec_shiftLeft, shiftSource_vx h, and_self]

end Sys2Proof.Machine
end

section
/-! SUPPORT. The execution loop (40_execution_loop.md): the three ends of a step, the fetch and the Undefined
opcode, the instants that take no step, and where STATUS can go in one instant (R91, R95, R97, R98, R99, R102). -/

namespace Sys2Proof.Machine

variable {s t u : State} {i : Instr} {op : Word}

/-! Frames of the operations of an instant -/

section Rules

variable {parts : List Part} {regs : List Reg}

theorem Frame.setRunEnable (h : Frame parts regs s t) {level : Bool} (hr : .runEnable ∈ parts := by simp) :
    Frame parts regs s { t with runEnable := level } :=
  h.writePart hr (fun p hp => by cases p <;> simp_all [Part.same]) rfl

theorem Frame.setKeysDown (h : Frame parts regs s t) {mask : Word} (hk : .keysDown ∈ parts := by simp) :
    Frame parts regs s { t with keysDown := mask } :=
  h.writePart hk (fun p hp => by cases p <;> simp_all [Part.same]) rfl

theorem Frame.setLoadError (h : Frame parts regs s t) {b : Bool} (hl : .loadError ∈ parts := by simp) :
    Frame parts regs s { t with loadError := b } :=
  h.writePart hl (fun p hp => by cases p <;> simp_all [Part.same]) rfl

/-- The end of a step writes the timers and `step_done` only (R95, R101, R102). -/
theorem Frame.finishStep (h : Frame parts regs s t) (hl : [Part.dt, .st, .stepDone] ⊆ parts := by simp) :
    Frame parts regs s t.finishStep := by
  have hfinish : Unchanged [.dt, .st, .stepDone] t t.finishStep := fun p hp => by
    cases p <;> simp_all [Part.same]
  exact h.trans ⟨hfinish.mono hl, fun r _ => t.reg_finishStep r⟩

/-- An Undefined opcode writes its diagnostic and PC only (R99). -/
theorem Frame.undefinedOpcode (h : Frame parts regs s t) (hl : [Part.diag, .undefSeen, .pc] ⊆ parts := by simp) :
    Frame parts regs s (t.undefinedOpcode op) := by
  have hundef : Unchanged [.diag, .undefSeen, .pc] t (t.undefinedOpcode op) := fun p hp => by
    cases p <;> simp_all [Part.same]
  exact h.trans ⟨hundef.mono hl, fun r _ => t.reg_undefinedOpcode op r⟩

end Rules

/-! The steps of the loop -/

theorem Steps.status_eq (h : Steps s) : s.status = .run := by
  obtain ⟨-, hrun, -⟩ := h
  exact hrun

/-- A step that completes ticks and pulses `step_done` (R95, R101). -/
theorem State.finishStep_completes (h : t.status = .run) : TimersTick t t.finishStep ∧ t.finishStep.stepDone = true := by
  rw [t.finishStep_run h]
  exact ⟨t.stepTick_timers, rfl⟩

/-- Settles O7: the three ends of a step, by the STATUS the execute phase left. -/
theorem stepRunsTheDecodedInstruction : Obligations.StepRunsTheDecodedInstruction := by
  intro s op i t hs hop hd ht
  refine ⟨_, step_of_decodes s hs hop hd ht, fun h => ?_, t.finishStep_waitKey, t.finishStep_halted⟩
  obtain ⟨htick, hdone⟩ := t.finishStep_completes h
  exact ⟨htick, hdone, Frame.refl.finishStep⟩

/-- Settles O10: the fetch's bounds check fails or passes, and the opcode read has the two bytes as its halves. -/
theorem fetchOutsideMemoryHalts : Obligations.FetchOutsideMemoryHalts :=
  ⟨fun s hs hpc => ⟨_, step_of_fetch_fault s hs hpc, halt_haltsWith s.atInstant _⟩,
    fun _ hpc => ⟨_, fetch_of_fetches ⟨hpc, rfl⟩, opcodeOfBytes_high _ _, opcodeOfBytes_low _ _⟩⟩

/-- Settles O11: the step ends as a completed one, after the one write of `diag`, UNDEF_SEEN and PC. -/
theorem undefinedOpcodeIsANoOpWithDiagnostic : Obligations.UndefinedOpcodeIsANoOpWithDiagnostic := by
  intro s op r hs hop hd
  obtain ⟨htick, hdone⟩ := (s.atInstant.undefinedOpcode op).finishStep_completes hs.status_eq
  refine ⟨_, step_of_undefined s hs hop hd, ?_, ?_, ?_, htick, hdone, Frame.refl.undefinedOpcode.finishStep⟩
  all_goals simp

/-! Instants that take no step -/

/-- A release that completes no wait is dropped (R97, R98; log 14). -/
theorem State.keyRelease_dropped {m : Word} (h : s.status ≠ .waitKey ∨ s.runEnable = false ∨ m = 0) :
    s.keyRelease m = s := by
  obtain ⟨hwait, hen, hm, -⟩ | ⟨-, hdrop⟩ := s.keyRelease_cases m
  · exact absurd h (by simpa [hwait, hen] using hm)
  · exact hdrop

/-- Settles O12: the loop's turn and the release each hold by their own condition, and a level's move writes it alone. -/
theorem noStepUnlessRunningAndEnabled : Obligations.NoStepUnlessRunningAndEnabled := by
  refine ⟨step_of_not_stepping, fun s m hm h => ?_, fun s level hm => ?_, fun s mask hm => ?_⟩
  · rw [step_of_move hm]
    exact congrArg Host.Outcome.next (State.keyRelease_dropped h)
  · exact ⟨_, step_of_move hm, rfl, Frame.refl.setRunEnable⟩
  · exact ⟨_, step_of_move hm, rfl, Frame.refl.setKeysDown⟩

/-- In IDLE and HALTED, `tick`, `frame_ack` and a release are ignored (R97, D41; log 12). -/
theorem State.inputs_ignored (h : s.status = .idle ∨ s.status = .halted) :
    s.strobeTick = s ∧ s.frameAck = s ∧ ∀ m, s.keyRelease m = s := by
  refine ⟨?_, ?_, fun m => State.keyRelease_dropped (.inl (by obtain h | h := h <;> simp [h]))⟩
  · obtain ⟨-, hactive, -⟩ | ⟨-, hignored⟩ := s.strobeTick_cases
    · obtain h | h := h <;> simp [h] at hactive
    · exact hignored
  · obtain ⟨hactive, -⟩ | ⟨-, hignored⟩ := s.frameAck_cases
    · obtain h | h := h <;> simp [h] at hactive
    · exact hignored

/-- In IDLE and HALTED the loop takes no step. -/
theorem not_steps_of_idle_or_halted (h : s.status = .idle ∨ s.status = .halted) : ¬Steps s := by
  intro hs
  have hrun := hs.status_eq
  obtain h | h := h <;> simp [h] at hrun

/-- Settles O14: by the way the instant goes, one of the two moves that leave IDLE and HALTED, one of the host's levels or
`load_error` by its own move, or nothing. -/
theorem idleAndHaltedLeftOnlyByResetOrLoad : Obligations.IdleAndHaltedLeftOnlyByResetOrLoad := by
  intro s u h hu
  obtain ⟨htick, hack, hkey⟩ := State.inputs_ignored (s := s.atInstant) h
  cases InstantTo.of_step hu with
  | fetchFault hs | undefined hs | instruction hs => exact absurd hs (not_steps_of_idle_or_halted h)
  | reset hm => exact .inl hm
  | load hm =>
    obtain ⟨-, hload⟩ | ⟨hlen, -⟩ := s.atInstant.loadProgram_cases _
    · rw [hload]
      exact .inr (.inr (and_assoc.1 ⟨Frame.refl.setLoadError, fun _ => rfl, fun _ => rfl, fun hno => absurd hm (hno _)⟩))
    · exact .inr (.inl ⟨_, hm, hlen⟩)
  | setRunEnable hm =>
    exact .inr (.inr (and_assoc.1 ⟨Frame.refl.setRunEnable, fun hno => absurd hm (hno _), fun _ => rfl, fun _ => rfl⟩))
  | setKeysDown hm =>
    exact .inr (.inr (and_assoc.1 ⟨Frame.refl.setKeysDown, fun _ => rfl, fun hno => absurd hm (hno _), fun _ => rfl⟩))
  | hold | writeHostStatus => exact .inr (.inr (and_assoc.1 ⟨Frame.refl, fun _ => rfl, fun _ => rfl, fun _ => rfl⟩))
  | keyRelease | tick | frameAck =>
    simp only [hkey, htick, hack]
    exact .inr (.inr (and_assoc.1 ⟨Frame.refl, fun _ => rfl, fun _ => rfl, fun _ => rfl⟩))

/-! Where STATUS can go (R97) -/

/-- The opcode of a fetch is the one the two bytes at PC give. -/
theorem Fetches.unique {op' : Word} (h : Fetches s op) (h' : Fetches s op') : op' = op := by
  obtain ⟨-, hop⟩ := h
  obtain ⟨-, hop'⟩ := h'
  exact hop'.trans hop.symm

/-- A fetch that reads an opcode is inside memory (R91). -/
theorem Fetches.not_past (h : Fetches s op) : ¬0xFFE ≤ s.pc.toNat := Nat.not_le_of_lt (Nat.lt_succ_of_le h.pc_le)

theorem Fetches.exists_and_iff (h : Fetches s op) {P : Word → Prop} : (∃ op', Fetches s op' ∧ P op') ↔ P op :=
  ⟨fun ⟨_, h', hp⟩ => h.unique h' ▸ hp, fun hp => ⟨op, h, hp⟩⟩

theorem not_raisesIn_waitKey (x : Reg) : ¬(Instr.waitKey x).RaisesIn s := fun ⟨h, _⟩ => Nat.lt_irrefl 0 h

/-- The STATUS an instruction leaves in RUN: HALTED where it raises, WAIT_KEY after WaitKey, else RUN (R204, R222). -/
theorem exec_status_of_run (h : exec i s = .next t) (hs : s.status = .run) :
    (i.RaisesIn s ∧ (∀ x, i ≠ .waitKey x) ∧ t.status = .halted) ∨
      (¬i.RaisesIn s ∧ (∃ x, i = .waitKey x) ∧ t.status = .waitKey) ∨
        (¬i.RaisesIn s ∧ (∀ x, i ≠ .waitKey x) ∧ t.status = .run) := by
  by_cases hr : i.RaisesIn s
  · obtain ⟨f, -, hf⟩ := exec_raises i s hr
    obtain rfl := exec_unique hf h
    exact .inl ⟨hr, fun x hx => not_raisesIn_waitKey x (hx ▸ hr), rfl⟩
  by_cases hp : Part.status ∈ i.partsWritten
  · obtain ⟨x, rfl⟩ := status_mem_partsWritten.1 hp
    obtain rfl := exec_unique (exec_waitKey s x) h
    exact .inr (.inl ⟨hr, ⟨x, rfl⟩, rfl⟩)
  · have hsame : t.status = s.status := exec_same_of_not_raises h hr hp
    exact .inr (.inr ⟨hr, fun x hx => hp (status_mem_partsWritten.2 ⟨x, hx⟩), hsame.trans hs⟩)

/-- The instruction's own condition does not read what the start of an instant writes. -/
theorem raisesIn_atInstant : i.RaisesIn s.atInstant ↔ i.RaisesIn s := Iff.rfl

/-- The STATUS a step of the loop leaves, by its fetch and its instruction (R97, R204, R215, R224). -/
theorem status_of_steps (hs : Steps s) (hu : step s = .next u) :
    u.status ≠ .idle ∧
      (u.status = .waitKey ↔ ∃ op x, Fetches s op ∧ decode op = .ok (.waitKey x)) ∧
      (u.status = .halted ↔ 0xFFE ≤ s.pc.toNat ∨ ∃ op i, Fetches s op ∧ decode op = .ok i ∧ i.RaisesIn s) := by
  simp only [exists_and_left]
  rcases stepping_cases s hs hu with ⟨hpc, rfl⟩ | ⟨op, hop, hstep⟩
  · have hno (op : Word) : ¬Fetches s op := fun hop => hop.not_past hpc
    simp [hno, hpc]
  simp only [hop.exists_and_iff, hop.not_past, false_or]
  obtain ⟨r, hd, rfl⟩ | ⟨i, t, hd, ht, rfl⟩ := hstep
  · simp [hd, hs.status_eq]
  · have hcases := exec_status_of_run ht hs.status_eq
    simp only [raisesIn_atInstant] at hcases
    obtain ⟨hr, hw, ht⟩ | ⟨hr, hw, ht⟩ | ⟨hr, hw, ht⟩ := hcases <;> simp [hd, hr, hw, ht]

theorem State.keyRelease_status (m : Word) : (s.keyRelease m).status =
    if s.status = .waitKey ∧ s.runEnable = true ∧ m ≠ 0 then .run else s.status := by
  obtain ⟨hwait, hen, hm, h⟩ | ⟨hno, h⟩ := s.keyRelease_cases m
  · rw [h, if_pos ⟨hwait, hen, hm⟩, State.completeWait_status]
  · rw [h, if_neg hno]

theorem State.loadProgram_status (blob : List Byte) :
    (s.loadProgram blob).status = if blob.length ≤ 3583 then .run else s.status := by
  obtain ⟨hlen, h⟩ | ⟨hlen, h⟩ := s.loadProgram_cases blob
  · rw [h, if_neg (Nat.not_le_of_lt hlen)]
  · rw [h, if_pos hlen]

theorem State.strobeTick_status : s.strobeTick.status = s.status := by
  obtain ⟨-, -, h⟩ | ⟨-, h⟩ := s.strobeTick_cases <;> simp [h]

theorem State.frameAck_status : s.frameAck.status = s.status := by
  obtain ⟨-, h⟩ | ⟨-, h⟩ := s.frameAck_cases <;> simp [h]

/-- Settles O13: the table's row for each way the instant can go. -/
theorem statusMovesOnlyAsTheTableSays : Obligations.StatusMovesOnlyAsTheTableSays := by
  intro s u hu
  cases InstantTo.of_step hu with
  | fetchFault hs | undefined hs | instruction hs =>
    obtain ⟨hq, hrun⟩ := hs
    rw [hq]
    simp only [if_pos hrun]
    exact status_of_steps ⟨hq, hrun⟩ hu
  | hold hq hno =>
    have hno' : ¬(s.status = .run ∧ s.runEnable = true) := by simpa [imp_iff_not_or] using hno
    rw [hq]
    simp only [if_neg hno']
    rfl
  | reset hm | setRunEnable hm | setKeysDown hm | writeHostStatus hm =>
    rw [hm]
    rfl
  | load hm =>
    rw [hm]
    exact State.loadProgram_status _
  | keyRelease hm =>
    rw [hm]
    exact State.keyRelease_status _
  | tick hm =>
    rw [hm]
    exact State.strobeTick_status
  | frameAck hm =>
    rw [hm]
    exact State.frameAck_status

end Sys2Proof.Machine
end

section
/-! SUPPORT. Control flow (41_control_flow.md): the jumps, Call and Return, and the skips on registers, each with what it
makes of PC and the stack and with its frame (R112 to R120). -/

namespace Sys2Proof.Machine

/-! The jumps -/

/-- Settles O30: PC is the target, widened with its value kept. -/
theorem jumpSetsPcToItsTarget : Obligations.JumpSetsPcToItsTarget := fun nnn s =>
  ⟨_, exec_jump s nnn, zextAddr_toNat nnn, Frame.refl.setPc⟩

/-- Settles O31: PC is the target plus V0, a sum that does not wrap. -/
theorem jumpPlusV0AddsV0 : Obligations.JumpPlusV0AddsV0 := fun nnn s =>
  ⟨_, exec_jumpPlusV0 s nnn, s.plusV0_toNat nnn, Frame.refl.setPc⟩

/-! Call and Return -/

/-- Settles O32: with room, the push writes the one entry at SP; with none, Call enters HALTED. -/
theorem callPushesItsOwnAddress : Obligations.CallPushesItsOwnAddress := by
  refine ⟨fun nnn s hsp => ?_, fun nnn s hsp => ⟨_, exec_call_full s nnn hsp, halt_haltsWith s _⟩⟩
  refine ⟨_, exec_call s nnn hsp, rfl, fun k => ?_, zextAddr_toNat nnn,
    (Frame.refl.setStack (stack := s.stack.set s.sp.val s.pc hsp)).setPc⟩
  simp only [Fin.getElem_fin, Vector.getElem_set, eq_comm (a := s.sp.val)]

/-- Settles O33: with an entry, Return pops it and moves past it; with none, it enters HALTED. -/
theorem returnGoesPastItsCall : Obligations.ReturnGoesPastItsCall :=
  ⟨fun s k hk => ⟨_, exec_ret s k hk, rfl, rfl, fun _ _ => rfl, (Frame.refl.setStack (sp := k.castSucc)).setPc⟩,
    fun s hsp => ⟨_, exec_ret_empty s hsp, halt_haltsWith s _⟩⟩

/-- Settles O34: the Return pops the entry the Call pushed, and neither writes an entry below it. -/
theorem callThenReturnRoundTrips : Obligations.CallThenReturnRoundTrips := by
  obtain ⟨hcall, -⟩ := callPushesItsOwnAddress
  obtain ⟨hreturn, -⟩ := returnGoesPastItsCall
  intro nnn s t hsp ht
  obtain ⟨t', ht', hspt, hpushed, -, hframe⟩ := hcall nnn s hsp
  obtain rfl := exec_unique ht' ht
  obtain ⟨u, hu, hspu, hpcu, hbelow, hframe'⟩ := hreturn t' ⟨s.sp.val, hsp⟩ hspt
  refine ⟨u, hu, ?_, Fin.ext hspu, fun k hk => ?_, Frame.trans hframe hframe'⟩
  · rw [hpcu, hpushed, if_pos rfl]
  · rw [hbelow k hk, hpushed, if_neg hk.ne]

/-! The skips on registers -/

/-- Settles O35: each skip writes PC alone, by its comparison. -/
theorem registerSkipsTestTheirCondition : Obligations.RegisterSkipsTestTheirCondition := by
  intro x y kk s
  refine ⟨⟨_, exec_skipIfEqual s x kk, ?_, Frame.refl.setPc⟩, ⟨_, exec_skipIfNotEqual s x kk, ?_, Frame.refl.setPc⟩,
    ⟨_, exec_skipIfVxEqVy s x y, ?_, Frame.refl.setPc⟩, ⟨_, exec_skipIfVxNeVy s x y, ?_, Frame.refl.setPc⟩⟩
  all_goals simp

end Sys2Proof.Machine
end

section
/-! SUPPORT. The ALU (42_alu.md): what each form of register write leaves in V, the flags as numbers, and what a shift
takes as its operand (R130 to R144). -/

namespace Sys2Proof.Machine

/-! The forms of write, each said once: a result and then a flag, a flag and then a shift (R131) -/

/-- The earlier of two register writes stands where the later one is to another register. -/
theorem State.reg_setReg_setReg (s : State) {x z : Reg} (b c : Byte) (h : x ≠ z) :
    ((s.setReg x b).setReg z c).reg x = b := by
  rw [State.reg_setReg_other _ _ h, State.reg_setReg_self]

/-- Add and the Subs: VF is the flag whatever x is, and Vx the result where it is not VF. -/
theorem writeResultThenFlag_next (x : Reg) (b : Byte) (flag : Bool) (s : State) :
    ∃ t, writeResultThenFlag x b flag s = .next t ∧ (x ≠ vf → t.reg x = b) ∧ t.reg vf = flagByte flag ∧
      t.pc = s.pc + 2 ∧ Unchanged [.pc] s t ∧ RegsUnchanged [x, vf] s t :=
  ⟨_, rfl, s.reg_setReg_setReg b _, (s.setReg x b).reg_setReg_self vf _, rfl, Frame.refl.setReg.setReg.next⟩

/-- A shift reads its source as it was, unless its source is VF and SHIFT_XF = SEQUENTIAL. -/
theorem State.shiftOperand_source {s : State} {src : Reg} (h : src ≠ vf ∨ s.params.shiftXf = .captured) (b : Byte) :
    s.shiftOperand (s.setReg vf b) src = s.reg src := by
  cases hxf : s.params.shiftXf with
  | captured => simp only [State.shiftOperand, hxf]
  | sequential =>
    have hsrc : src ≠ vf := h.resolve_right (by simp [hxf])
    simp only [State.shiftOperand, hxf, s.reg_setReg_other b hsrc]

/-- Under SHIFT_XF = SEQUENTIAL a shift whose source is VF reads the flag it has just written. -/
theorem State.shiftOperand_flag {s : State} (h : s.params.shiftXf = .sequential) (b : Byte) :
    s.shiftOperand (s.setReg vf b) vf = b := by
  simp only [State.shiftOperand, h, State.reg_setReg_self]

/-- The shifts: Vx is the operand shifted, and VF the flag of the source where it is not Vx. -/
theorem writeFlagThenShift_next (x y : Reg) (flag : Byte → Bool) (shift : Byte → Byte) (s : State) :
    ∃ t, writeFlagThenShift x y flag shift s = .next t ∧
      (shiftSource s.params x y ≠ vf ∨ s.params.shiftXf = .captured →
        t.reg x = shift (s.reg (shiftSource s.params x y))) ∧
      (shiftSource s.params x y = vf → s.params.shiftXf = .sequential →
        t.reg x = shift (flagByte (flag (s.reg (shiftSource s.params x y))))) ∧
      (x ≠ vf → t.reg vf = flagByte (flag (s.reg (shiftSource s.params x y)))) ∧
      t.pc = s.pc + 2 ∧ Unchanged [.pc] s t ∧ RegsUnchanged [x, vf] s t := by
  refine ⟨_, rfl, fun h => ?_, fun hsrc hxf => ?_, fun hx => ?_, rfl, Frame.refl.setReg.setReg.next⟩
  · rw [State.reg_advance, State.reg_setReg_self, State.shiftOperand_source h]
  · rw [State.reg_advance, State.reg_setReg_self, hsrc, State.shiftOperand_flag hxf]
  · exact s.reg_setReg_setReg _ _ hx.symm

/-! Flags and results as numbers -/

theorem flagByte_decide (p : Prop) [Decidable p] : flagByte (decide p) = if p then 1 else 0 := by
  simp only [flagByte, decide_eq_true_eq]

theorem flagByte_toNat (b : Bool) : (flagByte b).toNat = b.toNat := by cases b <;> rfl

theorem subFlag_zero {p : Params} (h : p.subTieVf = .zero) (a b : Byte) :
    subFlag p a b = decide (b.toNat < a.toNat) := by
  rw [subFlag, h]

theorem subFlag_one {p : Params} (h : p.subTieVf = .one) (a b : Byte) :
    subFlag p a b = decide (b.toNat ≤ a.toNat) := by
  rw [subFlag, h]

/-- A byte's difference is the integers' difference mod 256. -/
theorem toNat_sub_eq_emod (a b : Byte) : ((a - b).toNat : Int) = (a.toNat - b.toNat : Int) % 256 := by
  rw [BitVec.toNat_sub]
  omega

theorem toNat_shiftLeft_one (b : Byte) : (b <<< 1).toNat = 2 * b.toNat % 256 := by
  rw [BitVec.toNat_shiftLeft, Nat.shiftLeft_eq, Nat.mul_comm]

theorem flagByte_shiftRightFlag_toNat (b : Byte) : (flagByte (shiftRightFlag b)).toNat = b.toNat % 2 := by
  rw [flagByte_toNat, shiftRightFlag, BitVec.getLsbD, Nat.toNat_testBit, Nat.pow_zero, Nat.div_one]

theorem flagByte_shiftLeftFlag_toNat (b : Byte) : (flagByte (shiftLeftFlag b)).toNat = b.toNat / 128 := by
  rw [flagByte_toNat, shiftLeftFlag, BitVec.getLsbD, Nat.toNat_testBit]
  omega

theorem flagByte_ushiftRight_one (b : Bool) : flagByte b >>> 1 = 0 := by cases b <;> rfl

/-! Results without a flag -/

/-- Settles O36: one write of Vx, with the byte itself or with the sum, which a byte takes mod 256. -/
theorem immediatesWriteTheirRegister : Obligations.ImmediatesWriteTheirRegister := by
  intro x kk s
  refine ⟨⟨_, exec_loadImmediate s x kk, s.reg_setReg_self x kk, rfl, Frame.refl.setReg.next⟩,
    ⟨_, exec_addImmediate s x kk, ?_, rfl, Frame.refl.setReg.next⟩⟩
  rw [State.reg_advance, State.reg_setReg_self, BitVec.toNat_add]

/-- Settles O37: one write of Vx, with Vy or with the operation that acts on each bit alone. -/
theorem moveAndLogicWriteOnlyVx : Obligations.MoveAndLogicWriteOnlyVx := by
  intro x y s
  refine ⟨⟨_, exec_move s x y, s.reg_setReg_self x _, rfl, Frame.refl.setReg.next⟩,
    ⟨_, exec_or s x y, fun k => ?_, rfl, Frame.refl.setReg.next⟩,
    ⟨_, exec_and s x y, fun k => ?_, rfl, Frame.refl.setReg.next⟩,
    ⟨_, exec_xor s x y, fun k => ?_, rfl, Frame.refl.setReg.next⟩⟩
  · rw [State.reg_advance, State.reg_setReg_self, BitVec.getLsbD_or]
  · rw [State.reg_advance, State.reg_setReg_self, BitVec.getLsbD_and]
  · rw [State.reg_advance, State.reg_setReg_self, BitVec.getLsbD_xor]

/-- Settles O43: the draw moves the counter alone, and one write of Vx takes it masked bit by bit. -/
theorem randomMasksOneDraw : Obligations.RandomMasksOneDraw := by
  intro x kk s
  refine ⟨_, exec_random s x kk, fun k => ?_, rfl, rfl, Frame.refl.drawByte.setReg.next⟩
  rw [State.reg_advance, State.reg_setReg_self, BitVec.getLsbD_and]

/-! Add and the Subs -/

/-- Settles O38: the result is the sum, the flag its carry. -/
theorem addWritesSumAndCarry : Obligations.AddWritesSumAndCarry := by
  intro x y s
  obtain ⟨t, ht, hx, hvf, hend⟩ := writeResultThenFlag_next x (s.reg x + s.reg y) (addCarry (s.reg x) (s.reg y)) s
  refine ⟨t, ht, fun h => ?_, ?_, hend⟩
  · rw [hx h, BitVec.toNat_add]
  · rw [hvf, addCarry, flagByte_decide]

/-- The write of a difference `a - b` and its flag, by SUB_TIE_VF. -/
theorem writeResultThenFlag_sub (x : Reg) (a b : Byte) (s : State) :
    ∃ t, writeResultThenFlag x (a - b) (subFlag s.params a b) s = .next t ∧
      (x ≠ vf → ((t.reg x).toNat : Int) = (a.toNat - b.toNat : Int) % 256) ∧
      (s.params.subTieVf = .zero → t.reg vf = if b.toNat < a.toNat then 1 else 0) ∧
      (s.params.subTieVf = .one → t.reg vf = if b.toNat ≤ a.toNat then 1 else 0) ∧
      t.pc = s.pc + 2 ∧ Unchanged [.pc] s t ∧ RegsUnchanged [x, vf] s t := by
  obtain ⟨t, ht, hx, hvf, hend⟩ := writeResultThenFlag_next x (a - b) (subFlag s.params a b) s
  refine ⟨t, ht, fun h => ?_, fun htie => ?_, fun htie => ?_, hend⟩
  · rw [hx h, toNat_sub_eq_emod]
  · rw [hvf, subFlag_zero htie, flagByte_decide]
  · rw [hvf, subFlag_one htie, flagByte_decide]

/-- Settles O39: the two instructions write one difference, with the operands in either order. -/
theorem subtractionsWriteDifferenceAndFlag : Obligations.SubtractionsWriteDifferenceAndFlag := fun x y s =>
  ⟨writeResultThenFlag_sub x (s.reg x) (s.reg y) s, writeResultThenFlag_sub x (s.reg y) (s.reg x) s⟩

/-! The shifts -/

theorem shiftSource_vy {p : Params} (h : p.shiftSrc = .vy) (x y : Reg) : shiftSource p x y = y := by
  rw [shiftSource, h]

/-- ShiftRight under every reading of 93 Part 3, by its source. -/
theorem exec_shiftRight_next (x y : Reg) (s : State) :
    ∃ t, exec (.shiftRight x y) s = .next t ∧
      (shiftSource s.params x y ≠ vf ∨ s.params.shiftXf = .captured →
        (t.reg x).toNat = (s.reg (shiftSource s.params x y)).toNat / 2) ∧
      (shiftSource s.params x y = vf → s.params.shiftXf = .sequential → t.reg x = 0) ∧
      (x ≠ vf → (t.reg vf).toNat = (s.reg (shiftSource s.params x y)).toNat % 2) ∧
      t.pc = s.pc + 2 ∧ Unchanged [.pc] s t ∧ RegsUnchanged [x, vf] s t := by
  obtain ⟨t, ht, hsource, hflag, hvf, hend⟩ := writeFlagThenShift_next x y shiftRightFlag (fun b => b >>> 1) s
  refine ⟨t, ht, fun h => ?_, fun hsrc hxf => ?_, fun hx => ?_, hend⟩
  · rw [hsource h, BitVec.toNat_ushiftRight, Nat.shiftRight_one]
  · rw [hflag hsrc hxf, flagByte_ushiftRight_one]
  · rw [hvf hx, flagByte_shiftRightFlag_toNat]

/-- ShiftLeft under every reading of 93 Part 3, by its source. -/
theorem exec_shiftLeft_next (x y : Reg) (s : State) :
    ∃ t, exec (.shiftLeft x y) s = .next t ∧
      (shiftSource s.params x y ≠ vf ∨ s.params.shiftXf = .captured →
        (t.reg x).toNat = 2 * (s.reg (shiftSource s.params x y)).toNat % 256) ∧
      (shiftSource s.params x y = vf → s.params.shiftXf = .sequential →
        (t.reg x).toNat = 2 * ((s.reg (shiftSource s.params x y)).toNat / 128)) ∧
      (x ≠ vf → (t.reg vf).toNat = (s.reg (shiftSource s.params x y)).toNat / 128) ∧
      t.pc = s.pc + 2 ∧ Unchanged [.pc] s t ∧ RegsUnchanged [x, vf] s t := by
  obtain ⟨t, ht, hsource, hflag, hvf, hend⟩ := writeFlagThenShift_next x y shiftLeftFlag (fun b => b <<< 1) s
  refine ⟨t, ht, fun h => ?_, fun hsrc hxf => ?_, fun hx => ?_, hend⟩
  · rw [hsource h, toNat_shiftLeft_one]
  · rw [hflag hsrc hxf, toNat_shiftLeft_one, flagByte_shiftLeftFlag_toNat]
    omega
  · rw [hvf hx, flagByte_shiftLeftFlag_toNat]

/-- Settles O40: the source is Vx, which is VF only for x = F. -/
theorem shiftRightHalvesVx : Obligations.ShiftRightHalvesVx := by
  intro x y s
  obtain ⟨t, ht, hsource, hflag, hvf, hend⟩ := exec_shiftRight_next x y s
  refine ⟨t, ht, fun hvx => ?_, hend⟩
  simp only [shiftSource_vx hvx] at hsource hflag hvf
  exact ⟨fun hx => ⟨hsource (.inl hx), hvf hx⟩, fun hx => hx ▸ hflag hx⟩

/-- Settles O41: the source is Vx, which is VF only for x = F. -/
theorem shiftLeftDoublesVx : Obligations.ShiftLeftDoublesVx := by
  intro x y s
  obtain ⟨t, ht, hsource, hflag, hvf, hend⟩ := exec_shiftLeft_next x y s
  refine ⟨t, ht, fun hvx => ?_, hend⟩
  simp only [shiftSource_vx hvx] at hsource hflag hvf
  exact ⟨fun hx => ⟨hsource (.inl hx), hvf hx⟩, fun hx => hx ▸ hflag hx⟩

/-- Settles O42: CAPTURED reads the old source, VF too, and under SHIFT_SRC = VY the source is Vy. -/
theorem otherShiftReadingsShiftAsNamed : Obligations.OtherShiftReadingsShiftAsNamed := by
  refine ⟨fun y s hvx hcaptured => ?_, fun x y s hvy => ?_⟩
  · obtain ⟨t, ht, hright, -⟩ := exec_shiftRight_next vf y s
    obtain ⟨u, hu, hleft, -⟩ := exec_shiftLeft_next vf y s
    simp only [shiftSource_vx hvx] at hright hleft
    exact ⟨⟨t, ht, hright (.inr hcaptured)⟩, ⟨u, hu, hleft (.inr hcaptured)⟩⟩
  · obtain ⟨t, ht, hsource, hflag, hvf, -⟩ := exec_shiftRight_next x y s
    obtain ⟨u, hu, hsource', hflag', hvf', -⟩ := exec_shiftLeft_next x y s
    simp only [shiftSource_vy hvy] at hsource hflag hvf hsource' hflag' hvf'
    exact ⟨⟨t, ht, hsource, hflag, hvf⟩, ⟨u, hu, hsource', hflag', hvf'⟩⟩

end Sys2Proof.Machine
end

section
/-! SUPPORT. Index register and memory (43_index_memory.md): what each instruction makes of I, the digits StoreBCD
writes, and the transfers of V0..Vx, with what they leave alone (R160 to R166). -/

namespace Sys2Proof.Machine

variable {s t : State} {x : Reg}

/-! StoreBCD -/

/-- The bytes at I, I + 1 and I + 2 after a StoreBCD that completes, as numbers (R164). -/
theorem digits_storeBCD (hw : Memory.wf s.params s.mem) (hi : s.i.toNat + 2 ≤ 0xFFE)
    (h : exec (.storeBCD x) s = .next t) :
    (t.byte s.i.toNat).toNat = (s.reg x).toNat / 100 ∧
      (t.byte (s.i.toNat + 1)).toNat = (s.reg x).toNat / 10 % 10 ∧
      (t.byte (s.i.toNat + 2)).toNat = (s.reg x).toNat % 10 := by
  have hhundreds : t.byte s.i.toNat = BitVec.ofNat 8 ((s.reg x).toNat / 100) :=
    byte_storeBCD hw hi h (k := 0) (by decide)
  have htens : t.byte (s.i.toNat + 1) = BitVec.ofNat 8 ((s.reg x).toNat / 10 % 10) :=
    byte_storeBCD hw hi h (k := 1) (by decide)
  have hones : t.byte (s.i.toNat + 2) = BitVec.ofNat 8 ((s.reg x).toNat % 10) :=
    byte_storeBCD hw hi h (k := 2) (by decide)
  have hreg := (s.reg x).isLt
  rw [hhundreds, htens, hones]
  simp only [BitVec.toNat_ofNat]
  omega

/-- Settles O47: the bytes at I, I + 1 and I + 2 are the digits of weight 100, 10 and 1; past 0xFFE it halts. -/
theorem storeBcdWritesThreeDigits : Obligations.StoreBcdWritesThreeDigits := by
  refine ⟨fun x s hw hi => ?_, fun x s hpast => accessPastMemoryHalts (.storeBCD x) s (Nat.succ_pos 2) hpast⟩
  have h := exec_storeBCD s x (s.accessFault_none 3 (.inr hi))
  obtain ⟨hhundreds, htens, hones⟩ := digits_storeBCD hw hi h
  exact ⟨_, h, hhundreds, htens, hones, by omega, storesStayInsideTheirBytes _ s _ h, rfl, Frame.refl.storeAtI.next⟩

/-! StoreRegisters and LoadRegisters -/

/-- Past the bounds check, the advance of I does not wrap (R165, R166). -/
theorem State.bumpI_i_toNat (hi : s.i.toNat + x.toNat ≤ 0xFFE) : (s.bumpI x).i.toNat = s.i.toNat + x.toNat + 1 := by
  rw [State.bumpI_i, BitVec.toNat_add, BitVec.toNat_ofNat]
  omega

/-- Settles O48: the bytes at I and up are V0..Vx, and I moves past them; past 0xFFE it halts. -/
theorem storeRegistersWritesV0ToVx : Obligations.StoreRegistersWritesV0ToVx := by
  refine ⟨fun x s hw hi => ?_,
    fun x s hpast => accessPastMemoryHalts (.storeRegisters x) s (Nat.succ_pos _) hpast⟩
  have h := exec_storeRegisters s x (s.accessFault_none _ (.inr hi))
  exact ⟨_, h, fun r hr => (byte_storeRegisters hw hi h r).trans (if_pos hr), storesStayInsideTheirBytes _ s _ h,
    State.bumpI_i_toNat hi, rfl, Frame.refl.storeAtI.bumpI.next⟩

/-- Settles O49: V0..Vx are the bytes at I and up, and I moves past them; past 0xFFE it halts. -/
theorem loadRegistersReadsV0ToVx : Obligations.LoadRegistersReadsV0ToVx := by
  refine ⟨fun x s hi => ?_,
    fun x s hpast => accessPastMemoryHalts (.loadRegisters x) s (Nat.succ_pos _) hpast⟩
  have hreg := s.reg_loadRegsUpTo x
  have hframe : Frame [.pc, .i] (Instr.loadRegisters x).regsWritten s (((s.loadRegsUpTo x).bumpI x).advance .next) :=
    (Frame.refl.loadRegsUpTo fun _ => mem_regsWritten_loadRegisters).bumpI.next
  exact ⟨_, exec_loadRegisters s x (s.accessFault_none _ (.inr hi)), fun r hr => (hreg r).trans (if_pos hr),
    fun r hr => (hreg r).trans (if_neg (Nat.not_le_of_lt hr)), State.bumpI_i_toNat hi, rfl, hframe.1⟩

/-- Settles O50: the load reads at the old I the bytes the store wrote there, and both move I by x + 1 from it. -/
theorem storeThenLoadRestoresRegisters : Obligations.StoreThenLoadRestoresRegisters := by
  obtain ⟨hstore, -⟩ := storeRegistersWritesV0ToVx
  obtain ⟨hload, -⟩ := loadRegistersReadsV0ToVx
  intro x s t v' hw hi ht
  obtain ⟨t', ht', hbyte, -, hit, -⟩ := hstore x s hw hi
  obtain rfl := exec_unique ht' ht
  obtain ⟨u, hu, hreg, -, hiu, -⟩ := hload x { t' with i := s.i, v := v' } hi
  exact ⟨u, hu, fun r hr => (hreg r hr).trans (hbyte r hr), BitVec.eq_of_toNat_eq (hiu.trans hit.symm)⟩

/-! The instructions that set I alone -/

/-- Settles O44: I is the address, widened with its value kept. -/
theorem setIZeroExtendsItsAddress : Obligations.SetIZeroExtendsItsAddress := fun nnn s =>
  ⟨_, exec_setI s nnn, zextAddr_toNat nnn, rfl, Frame.refl.setI.next⟩

/-- VF after Fx1E, in its three cases (R162, D11). -/
theorem State.reg_vf_setAddIFlag (s : State) (p : Prop) [Decidable p] :
    (p → (s.setAddIFlag (decide p)).reg vf = 1) ∧
      (¬p → s.params.fx1eVf = .unchanged → (s.setAddIFlag (decide p)).reg vf = s.reg vf) ∧
      (¬p → s.params.fx1eVf = .clear → (s.setAddIFlag (decide p)).reg vf = 0) := by
  refine ⟨fun hp => ?_, fun hp hvf => ?_, fun hp hvf => ?_⟩
  · simp [State.reg_setAddIFlag, hp]
  · simp [State.reg_setAddIFlag, hp, hvf]
  · simp [State.reg_setAddIFlag, hp, hvf]

/-- Settles O45: I is the sum mod 2^16, and VF is written by the carry out of 16 bits. -/
theorem addToIFlagsTheSixteenBitCarry : Obligations.AddToIFlagsTheSixteenBitCarry := by
  intro x s
  obtain ⟨hcarry, hunchanged, hclear⟩ := (s.setI (s.i + (s.reg x).setWidth 16)).reg_vf_setAddIFlag
    (0xFFFF < s.i.toNat + (s.reg x).toNat)
  refine ⟨_, exec_addToI s x, ?_, hcarry, fun h => hunchanged (Nat.not_lt_of_le h),
    fun h => hclear (Nat.not_lt_of_le h), ?_, Frame.refl.setI.setAddIFlag.next⟩
  · rw [State.advance_next_i, State.setAddIFlag_i, State.setI_i, BitVec.toNat_add,
      BitVec.toNat_setWidth_of_le (by decide)]
  · rw [State.advance_next_pc, State.setAddIFlag_pc, State.setI_pc]

/-- The glyph's address, as R163 writes the sum and R22 reduces it. -/
theorem fontAddress_toNat (p : Params) (b : Byte) :
    (fontAddress p b).toNat = (p.fontBase.val + 5 * fontDigit p b) % 65536 := BitVec.toNat_ofNat _ _

theorem fontDigit_lowNibble {p : Params} (h : p.digitMap = .lowNibble) (b : Byte) : fontDigit p b = b.toNat % 16 := by
  rw [fontDigit, h]

theorem fontDigit_unmasked {p : Params} (h : p.digitMap = .unmasked) (b : Byte) : fontDigit p b = b.toNat := by
  rw [fontDigit, h]

theorem fontDigit_anyMap {p : Params} (h : p.digitMap = .anyMap) (b : Byte) : fontDigit p b = Config.fx29Digit b := by
  rw [fontDigit, h]

/-- Settles O46: I is FONT_BASE plus 5 times the digit, a sum that does not wrap for a digit of a byte's size (R31). -/
theorem loadFontAddressPointsToTheGlyph : Obligations.LoadFontAddressPointsToTheGlyph := by
  intro x s
  have hbase := s.params.fontBase.isLt
  have hreg := (s.reg x).isLt
  refine ⟨_, exec_loadFontAddress s x, fun hmap => ?_, fun hmap => ?_, fun hmap => ?_, rfl, Frame.refl.setI.next⟩
  · rw [State.advance_next_i, State.setI_i, fontAddress_toNat, fontDigit_lowNibble hmap]
    omega
  · rw [State.advance_next_i, State.setI_i, fontAddress_toNat, fontDigit_unmasked hmap]
    omega
  · rw [State.advance_next_i, State.setI_i, fontAddress_toNat, fontDigit_anyMap hmap]

end Sys2Proof.Machine
end

section
/-! SUPPORT. The display (44_display_blitter.md): the bits of a placed sprite byte, the rows a blit writes and its
collision flag, and from them ClearScreen and Draw (R180 to R184). -/

namespace Sys2Proof.Machine

/-! ClearScreen -/

/-- Settles O52: the framebuffer is the vector of zero rows; only PC and the redraw level are written beside it. -/
theorem clearScreenClearsEveryRow : Obligations.ClearScreenClearsEveryRow := fun s =>
  ⟨_, exec_clearScreen s, fun r => Vector.getElem_replicate r.isLt, rfl, rfl, Frame.refl.setFb.requestRedraw.next⟩

/-! A sprite byte in its columns (R181) -/

theorem rotr64_eq_rotateRight (v : FbRow) {k : Nat} (hk : k < 64) : rotr64 v k = v.rotateRight k := by
  rw [BitVec.rotateRight_def, Nat.mod_eq_of_lt hk, rotr64]

/-- Rotating right by k brings bit `(i + k) mod 64` to bit i. -/
theorem rotr64_getLsbD (v : FbRow) {k i : Nat} (hk : k < 64) (hi : i < 64) :
    (rotr64 v k).getLsbD i = v.getLsbD ((i + k) % 64) := by
  rw [rotr64_eq_rotateRight v hk, BitVec.getLsbD_rotateRight, Nat.mod_eq_of_lt hk]
  by_cases h : i < 64 - k
  · rw [decide_eq_true h, cond_true, Nat.mod_eq_of_lt (by omega), Nat.add_comm]
  · rw [decide_eq_false h, cond_false, decide_eq_true hi, Bool.true_and, show (i + k) % 64 = i - (64 - k) by omega]

/-- A sprite byte moved to the left edge of its row fills bits 63 to 56. -/
theorem leftmost_getLsbD (b : Byte) {j : Nat} (hj : j < 64) :
    (b.setWidth 64 <<< 56 : FbRow).getLsbD j = (decide (56 ≤ j) && b.getLsbD (j - 56)) := by
  rw [BitVec.getLsbD_shiftLeft, BitVec.getLsbD_setWidth, decide_eq_true hj, Bool.true_and,
    decide_eq_true (show j - 56 < 64 by omega), Bool.true_and, ← decide_not, decide_eq_decide.2 Nat.not_lt]

/-- Column c, which stands `(c + 64 - x0) mod 64` to the right of column x0, shows that pixel of the sprite byte. -/
theorem place_getLsbD (b : Byte) {x0 c : Nat} (hx : x0 < 64) (hc : c < 64) :
    (place b x0).getLsbD (63 - c) =
      (decide ((c + 64 - x0) % 64 < 8) && b.getLsbD (7 - (c + 64 - x0) % 64)) := by
  have hbit : (63 - c + x0) % 64 = 63 - (c + 64 - x0) % 64 := by omega
  rw [place, rotr64_getLsbD _ hx (by omega), leftmost_getLsbD b (by omega), hbit]
  congr 2
  · exact propext (by omega)
  · omega

/-- Settles O53: the pixel column c shows is the only k with `c = (x0 + k) mod 64`. -/
theorem placePutsPixelsInColumns : Obligations.PlacePutsPixelsInColumns := by
  intro b x0 c hx hc
  rw [place_getLsbD b hx hc, Bool.and_eq_true, decide_eq_true_eq]
  constructor
  · exact fun ⟨hk, hb⟩ => ⟨_, hk, by omega, hb⟩
  · rintro ⟨k, hk, hck, hb⟩
    obtain rfl : k = (c + 64 - x0) % 64 := by omega
    exact ⟨hk, hb⟩

/-! The rows a blit writes (R183) -/

/-- A framebuffer with a mask XORed into one row. -/
def xorRow (fb : Vector FbRow 32) (r : Fin 32) (mask : FbRow) : Vector FbRow 32 := fb.set r (fb[r] ^^^ mask)

@[simp] theorem xorRow_self (fb : Vector FbRow 32) (r : Fin 32) (mask : FbRow) :
    (xorRow fb r mask)[r] = fb[r] ^^^ mask :=
  Vector.getElem_set_self r.isLt

theorem xorRow_other (fb : Vector FbRow 32) {r r' : Fin 32} (mask : FbRow) (h : r' ≠ r) :
    (xorRow fb r mask)[r'] = fb[r'] :=
  Vector.getElem_set_ne r.isLt r'.isLt (fun e => h (Fin.ext e.symm))

section Blit

variable (fb : Vector FbRow 32) (x0 y : Nat)

/-- The framebuffer row of sprite row k, for a sprite whose top row is y (R183). -/
abbrev spriteRow (k : Nat) : Fin 32 := Fin.ofNat 32 (y + k)

/-- The rows below the top one of a sprite are the rows of a sprite one lower. -/
theorem spriteRow_succ (k : Nat) : spriteRow y (k + 1) = spriteRow (y + 1) k := by
  rw [spriteRow, spriteRow, Nat.add_assoc, Nat.add_comm 1]

/-- A framebuffer row is one of the sprite's n rows or none of them. -/
theorem spriteRow_cases (n : Nat) (r : Fin 32) :
    (∃ k, k < n ∧ r = spriteRow y k) ∨ ∀ k, k < n → r ≠ spriteRow y k := by
  simpa only [not_exists, not_and] using Classical.em (∃ k, k < n ∧ r = spriteRow y k)

/-- A sprite of at most 32 rows does not come round to its top row. -/
theorem spriteRow_succ_ne {k : Nat} (hk : k + 1 < 32) : spriteRow y (k + 1) ≠ spriteRow y 0 := by
  simp only [spriteRow, Ne, Fin.ext_iff, Fin.val_ofNat]
  omega

theorem blit_cons_fst (b : Byte) (rest : List Byte) :
    (blit fb x0 y (b :: rest)).1 = (blit (xorRow fb (spriteRow y 0) (place b x0)) x0 (y + 1) rest).1 := rfl

theorem blit_cons_snd (b : Byte) (rest : List Byte) :
    (blit fb x0 y (b :: rest)).2 = (collides fb[spriteRow y 0] (place b x0) ||
      (blit (xorRow fb (spriteRow y 0) (place b x0)) x0 (y + 1) rest).2) := rfl

/-- The rows below the top one of a sprite of at most 32 rows find the framebuffer as it was before the top row. -/
theorem xorRow_spriteRow_succ (mask : FbRow) {k : Nat} (hk : k + 1 < 32) :
    (xorRow fb (spriteRow y 0) mask)[spriteRow (y + 1) k] = fb[spriteRow y (k + 1)] := by
  simp only [← spriteRow_succ]
  exact xorRow_other fb mask (spriteRow_succ_ne y hk)

theorem blit_other_row {r : Fin 32} (sprite : List Byte) (hr : ∀ k < sprite.length, r ≠ spriteRow y k) :
    (blit fb x0 y sprite).1[r] = fb[r] := by
  induction sprite generalizing fb y with
  | nil => rfl
  | cons b rest ih =>
    have hbelow : ∀ k < rest.length, r ≠ spriteRow (y + 1) k := fun k hk =>
      spriteRow_succ y k ▸ hr (k + 1) (Nat.succ_lt_succ hk)
    exact (ih _ _ hbelow).trans (xorRow_other fb _ (hr 0 (Nat.succ_pos _)))

theorem blit_sprite_row (sprite : List Byte) (hlen : sprite.length ≤ 32) (k : Nat) (hk : k < sprite.length) :
    (blit fb x0 y sprite).1[spriteRow y k] = fb[spriteRow y k] ^^^ place sprite[k] x0 := by
  induction sprite generalizing fb y k with
  | nil => exact absurd hk (Nat.not_lt_zero k)
  | cons b rest ih =>
    rw [List.length_cons] at hlen hk
    cases k with
    | zero =>
      have hbelow : ∀ k < rest.length, spriteRow y 0 ≠ spriteRow (y + 1) k := fun k hk =>
        spriteRow_succ y k ▸ (spriteRow_succ_ne y (by omega)).symm
      exact (blit_other_row _ x0 (y + 1) rest hbelow).trans (xorRow_self ..)
    | succ j =>
      have hrest := ih (xorRow fb (spriteRow y 0) (place b x0)) (y + 1) (by omega) j (by omega)
      rw [xorRow_spriteRow_succ fb y _ (by omega)] at hrest
      simp only [← spriteRow_succ] at hrest
      exact hrest

theorem collides_iff (row mask : FbRow) : collides row mask = true ↔ row &&& mask ≠ 0 := bne_iff_ne

/-- A collision in any row sets the flag, and each row collides with the framebuffer as it was before the blit: no row
of a sprite of at most 32 rows is written twice. -/
theorem blit_collides_iff (sprite : List Byte) (hlen : sprite.length ≤ 32) :
    (blit fb x0 y sprite).2 = true ↔
      ∃ (k : Nat) (hk : k < sprite.length), fb[spriteRow y k] &&& place sprite[k] x0 ≠ 0 := by
  induction sprite generalizing fb y with
  | nil => simp
  | cons b rest ih =>
    rw [List.length_cons] at hlen
    rw [blit_cons_snd, Bool.or_eq_true, collides_iff, ih _ _ (by omega)]
    simp only [List.length_cons, Nat.exists_lt_succ_left', List.getElem_cons_succ, List.getElem_cons_zero]
    refine or_congr_right (exists_congr fun k => exists_congr fun hk => ?_)
    rw [xorRow_spriteRow_succ fb y _ (by omega)]

end Blit

theorem flagByte_eq_one_iff (b : Bool) : flagByte b = 1 ↔ b = true := by cases b <;> decide

theorem flagByte_eq_zero_or_one (b : Bool) : flagByte b = 0 ∨ flagByte b = 1 := by cases b <;> decide

/-! Draw -/

theorem State.spriteBytes_length (s : State) (n : RowCount) : (s.spriteBytes n).length = n.toNat :=
  Memory.readBytes_length _ _ _

theorem State.spriteBytes_getElem (s : State) (n : RowCount) {k : Nat} (hk : k < (s.spriteBytes n).length) :
    (s.spriteBytes n)[k] = s.byte (s.i.toNat + k) :=
  Memory.readBytes_getElem _ _ _ _ (s.spriteBytes_length n ▸ hk)

/-- Settles O54: the blit gives the rows and the flag, and VF is the last register write; past 0xFFE it halts. -/
theorem drawXorsItsRowsAndFlagsCollision : Obligations.DrawXorsItsRowsAndFlagsCollision := by
  refine ⟨fun x y n s hi => ?_, fun x y n s hn hpast =>
    accessPastMemoryHalts (.draw x y n) s (Nat.pos_of_ne_zero fun h => hn (BitVec.eq_of_toNat_eq h)) hpast⟩
  have hlen := s.spriteBytes_length n
  have hmax : (s.spriteBytes n).length ≤ 32 := by have := n.isLt; omega
  have hvf : ((s.drawSprite x y (s.spriteBytes n)).advance .next).reg vf =
      flagByte (blit s.fb ((s.reg x).toNat % 64) (s.reg y).toNat (s.spriteBytes n)).2 := by
    rw [State.reg_advance, State.reg_drawSprite, if_pos rfl]
  refine ⟨_, exec_draw s x y n (s.accessFault_none _ (hi.imp_left (congrArg BitVec.toNat))), fun k hk => ?_,
    fun r hr => ?_, ?_, ?_, rfl, rfl, Frame.refl.drawSprite.next⟩
  · rw [← s.spriteBytes_getElem n (hlen ▸ hk)]
    exact blit_sprite_row _ _ _ _ hmax k _
  · exact blit_other_row _ _ _ _ (hlen ▸ hr)
  · rw [hvf]
    exact flagByte_eq_zero_or_one _
  · rw [hvf, flagByte_eq_one_iff, blit_collides_iff _ _ _ _ hmax]
    simp only [State.fbRead, s.spriteBytes_getElem n, hlen, exists_prop]

/-- XORing a mask into a row that already took it collides exactly where the first time lit a pixel. -/
theorem xor_and_ne_zero_iff (row mask : FbRow) :
    (row ^^^ mask) &&& mask ≠ 0 ↔ ∃ c, row.getLsbD c = false ∧ (row ^^^ mask).getLsbD c = true := by
  refine BitVec.zero_iff_eq_false.not.trans (not_forall.trans (exists_congr fun c => ?_))
  rw [BitVec.getLsbD_and, BitVec.getLsbD_xor]
  cases row.getLsbD c <;> cases mask.getLsbD c <;> decide

/-- Settles O55: the second Draw reads the same operands and sprite, so it XORs the same masks into the same rows. -/
theorem drawingTwiceRestoresTheFramebuffer : Obligations.DrawingTwiceRestoresTheFramebuffer := by
  obtain ⟨hdraw, -⟩ := drawXorsItsRowsAndFlagsCollision
  intro x y n s t hx hy hn ht
  obtain ⟨t', ht', hrow, hother, -, -, -, -, hsame, hregs⟩ := hdraw x y n s hn
  obtain rfl := exec_unique ht' ht
  have hvx : t'.reg x = s.reg x := hregs x (by simpa using hx)
  have hvy : t'.reg y = s.reg y := hregs y (by simpa using hy)
  have hi : t'.i = s.i := hsame .i (by decide)
  have hbyte : ∀ a, t'.byte a = s.byte a := hsame .mem (by decide)
  obtain ⟨u, hu, hrow', hother', -, hflag, -⟩ := hdraw x y n t' (hi ▸ hn)
  simp only [hvx, hvy, hi, hbyte] at hrow' hother' hflag
  have hcases := spriteRow_cases (s.reg y).toNat n.toNat
  have hrestored : ∀ r, u.fbRead r = s.fbRead r := fun r => by
    obtain ⟨k, hk, rfl⟩ | hr := hcases r
    · rw [hrow' k hk, hrow k hk, BitVec.xor_assoc, BitVec.xor_self, BitVec.xor_zero]
    · exact (hother' r hr).trans (hother r hr)
  refine ⟨u, hu, Vector.ext fun r hr => hrestored ⟨r, hr⟩, hflag.trans ⟨?_, ?_⟩⟩
  · rintro ⟨k, hk, hcollides⟩
    rw [hrow k hk] at hcollides
    obtain ⟨c, hoff, hon⟩ := (xor_and_ne_zero_iff _ _).1 hcollides
    exact ⟨_, c, hoff, hrow k hk ▸ hon⟩
  · rintro ⟨r, c, hoff, hon⟩
    obtain ⟨k, hk, rfl⟩ | hr := hcases r
    · refine ⟨k, hk, ?_⟩
      rw [hrow k hk] at hon ⊢
      exact (xor_and_ne_zero_iff _ _).2 ⟨c, hoff, hon⟩
    · exact absurd (hother r hr ▸ hon) (Bool.eq_false_iff.1 hoff)

end Sys2Proof.Machine
end

section
/-! SUPPORT. Timers and keys (45_timers_keys.md): the tick of a step and of a strobe, the timer instructions before and
after the tick of their own step, the skips on keys, and the wait from WaitKey to release (R195 to R206, R246). -/

namespace Sys2Proof.Machine

variable {s t : State} {op : Word}

/-! Frames of the tick and of the pulse -/

section Rules

variable {parts : List Part} {regs : List Reg}

theorem Frame.tick (h : Frame parts regs s t) (hd : .dt ∈ parts := by simp) (hs : .st ∈ parts := by simp) :
    Frame parts regs s t.tick :=
  (h.setDt (b := countDown t.dt) hd).setSt hs

theorem Frame.pulseStepDone (h : Frame parts regs s t) (hp : .stepDone ∈ parts := by simp) :
    Frame parts regs s { t with stepDone := true } :=
  h.writePart hp (fun p hp => by cases p <;> simp_all [Part.same]) rfl

end Rules

/-! The tick (R195, R196) -/

theorem State.stepTick_perStep (h : s.params.timerMode = .perStep) : s.stepTick = s.tick := by
  rw [State.stepTick, h]

theorem State.stepTick_externalTick (h : s.params.timerMode = .externalTick) : s.stepTick = s := by
  rw [State.stepTick, h]

/-- A line of R195, in its two cases. -/
theorem countDown_cases (b : Byte) : if b = 0 then countDown b = 0 else (countDown b).toNat + 1 = b.toNat := by
  split
  · next h => exact if_pos h
  · next h =>
    have hpos : b.toNat ≠ 0 := fun h0 => h (BitVec.eq_of_toNat_eq h0)
    rw [countDown_toNat]
    omega

/-- Settles O8: the tick phase is the two lines of R195, one for each timer. -/
theorem perStepTickCountsTimersDown : Obligations.PerStepTickCountsTimersDown := by
  intro s h
  rw [State.stepTick_perStep h]
  exact ⟨countDown_cases s.dt, countDown_cases s.st, Frame.refl.tick⟩

theorem State.strobeTick_ticks (hmode : s.params.timerMode = .externalTick)
    (hs : s.status = .run ∨ s.status = .waitKey) : s.strobeTick = s.tick := by
  obtain ⟨-, -, h⟩ | ⟨hno, -⟩ := s.strobeTick_cases
  · exact h
  · obtain hs | hs := hs <;> simp [hmode, hs] at hno

theorem State.strobeTick_ignored (h : s.params.timerMode = .perStep ∨ s.status = .idle ∨ s.status = .halted) :
    s.strobeTick = s := by
  obtain ⟨hmode, hs, -⟩ | ⟨-, h⟩ := s.strobeTick_cases
  · obtain hs | hs := hs <;> simp [hmode, hs] at h
  · exact h

/-- Settles O9: the tick phase and the strobe, each by the mode and the STATUS it looks at. -/
theorem externalTickMovesTimersOnStrobesOnly : Obligations.ExternalTickMovesTimersOnStrobesOnly := by
  refine ⟨fun s => State.stepTick_externalTick, fun s hm hmode hs => ?_, fun s hm h => ?_⟩
  · have htick : s.atInstant.strobeTick = s.atInstant.tick := State.strobeTick_ticks hmode hs
    exact ⟨_, (step_of_move hm).trans (congrArg Host.Outcome.next htick), countDown_toNat s.dt,
      countDown_toNat s.st, Frame.refl.tick⟩
  · exact (step_of_move hm).trans (congrArg Host.Outcome.next (State.strobeTick_ignored h))

/-! The timer instructions (R198 to R200, R246) -/

/-- Settles O56: each instruction is one write, of Vx or of its timer, and the PC advance. -/
theorem timerInstructionsMoveTheirTimer : Obligations.TimerInstructionsMoveTheirTimer := fun x s =>
  ⟨⟨_, exec_loadDelayTimer s x, s.reg_setReg_self x s.dt, rfl, Frame.refl.setReg.next⟩,
    ⟨_, exec_setDelayTimer s x, rfl, rfl, (Frame.refl.setDt (b := s.reg x)).setPc⟩,
    ⟨_, exec_setSoundTimer s x, rfl, rfl, (Frame.refl.setSt (b := s.reg x)).setPc⟩⟩

/-- Under PER_STEP a completed step leaves each timer one below what its execute phase left (R95, R195). -/
theorem step_timers_perStep {i : Instr} (hs : Steps s) (hop : Fetches s op) (hd : decode op = .ok i)
    (ht : exec i s.atInstant = .next t) (hrun : t.status = .run) (hmode : s.params.timerMode = .perStep) :
    step s = .next t.finishStep ∧ t.finishStep.dt.toNat = t.dt.toNat - 1 ∧
      t.finishStep.st.toNat = t.st.toNat - 1 := by
  have hmode' : t.params.timerMode = .perStep := exec_params ht ▸ hmode
  obtain ⟨htick, -⟩ := t.finishStep_completes hrun
  exact ⟨step_of_decodes s hs hop hd ht, by simpa only [TimersTick, hmode'] using htick⟩

/-- The sound is on while ST is not 0 (R206). -/
theorem State.soundActive_eq (s : State) : s.soundActive = decide (0 < s.st.toNat) := by
  rw [Bool.eq_iff_iff, s.soundActive_iff, decide_eq_true_iff, Nat.pos_iff_ne_zero]
  exact BitVec.toNat_ne_iff_ne.symm

/-- Settles O57: the tick takes one off what the instruction wrote, and Fx07 has read DT by then. -/
theorem timerWriteTicksInItsOwnStep : Obligations.TimerWriteTicksInItsOwnStep := by
  intro x s op hs hop hmode
  refine ⟨fun hd => ?_, fun hd => ?_, fun hd => ?_⟩
  · obtain ⟨hstep, hdt, -⟩ := step_timers_perStep hs hop hd (exec_setDelayTimer _ x) hs.status_eq hmode
    exact ⟨_, hstep, hdt⟩
  · obtain ⟨hstep, -, hst⟩ := step_timers_perStep hs hop hd (exec_setSoundTimer _ x) hs.status_eq hmode
    refine ⟨_, hstep, hst, ?_⟩
    rw [State.soundActive_eq]
    exact decide_eq_decide.2 (hst ▸ Nat.sub_pos_iff_lt)
  · obtain ⟨hstep, hdt, -⟩ := step_timers_perStep hs hop hd (exec_loadDelayTimer _ x) hs.status_eq hmode
    refine ⟨_, hstep, ?_, hdt⟩
    rw [State.reg_finishStep, State.reg_advance, State.reg_setReg_self, State.atInstant_dt]

/-! The skips on keys (R201 to R203) -/

theorem getLsbD_iff_div_mod {w : Nat} (m : BitVec w) (k : Nat) : m.getLsbD k = true ↔ m.toNat / 2 ^ k % 2 = 1 := by
  rw [← BitVec.testBit_toNat, Nat.testBit_eq_decide_div_mod_eq, decide_eq_true_iff]

theorem State.keyPressed_notPressed (h : s.params.keyIndexMap = .notPressed) (b : Byte) :
    s.keyPressed b = true ↔ b.toNat < 16 ∧ s.keysDown.toNat / 2 ^ b.toNat % 2 = 1 := by
  simp only [State.keyPressed, h, Bool.and_eq_true, decide_eq_true_iff, getLsbD_iff_div_mod]

theorem State.keyPressed_lowNibble (h : s.params.keyIndexMap = .lowNibble) (b : Byte) :
    s.keyPressed b = true ↔ s.keysDown.toNat / 2 ^ (b.toNat % 16) % 2 = 1 := by
  simp only [State.keyPressed, h, getLsbD_iff_div_mod]

/-- Settles O58: the key by the map of 93 Part 3, and each skip writes PC alone by it. -/
theorem keySkipsSampleKeysDown : Obligations.KeySkipsSampleKeysDown := by
  intro x s
  refine ⟨fun h => State.keyPressed_notPressed h _, fun h => State.keyPressed_lowNibble h _,
    ⟨_, exec_skipIfKeyDown s x, rfl, Frame.refl.setPc⟩, ⟨_, exec_skipIfKeyUp s x, ?_, Frame.refl.setPc⟩⟩
  cases s.keyPressed (s.reg x) <;> rfl

/-! The wait (R204, R205) -/

/-- Settles O59: WaitKey writes STATUS and WAIT_REG, and the end of its step pulses `step_done` alone. -/
theorem waitKeyEntersTheWait : Obligations.WaitKeyEntersTheWait := by
  refine ⟨fun x s => ⟨_, exec_waitKey s x, rfl, rfl, (Frame.refl.setWaitReg (x := x)).setStatus⟩,
    fun x s op hs hop hd => ?_⟩
  have hstep := step_of_decodes s hs hop hd (exec_waitKey _ x)
  rw [State.finishStep_waitKey _ rfl] at hstep
  exact ⟨_, hstep, rfl, rfl, rfl, ((Frame.refl.setWaitReg (x := x)).setStatus (st := .waitKey)).pulseStepDone⟩

/-- The lowest set bit of a non-zero mask is set, and no bit below it is (D19). -/
theorem lowestSetBit_spec {m : Word} (h : m ≠ 0) :
    m.getLsbD (lowestSetBit m) = true ∧ ∀ j < lowestSetBit m, m.getLsbD j = false := by
  cases hfind : (List.range 16).find? fun k => m.getLsbD k with
  | none =>
    have hclear : ∀ k < 16, m.getLsbD k = false := by simpa using hfind
    exact absurd (BitVec.eq_of_getLsbD_eq fun k hk => by simpa using hclear k hk) h
  | some k =>
    obtain ⟨hset, -, hbelow⟩ := List.find?_range_eq_some.1 hfind
    simpa [lowestSetBit, hfind] using And.intro hset hbelow

/-- A key index fits a V register. -/
theorem lowestSetBit_toNat {m : Word} (h : m ≠ 0) : (BitVec.ofNat 8 (lowestSetBit m)).toNat = lowestSetBit m := by
  have hlt : lowestSetBit m < 16 := BitVec.lt_of_getLsbD (lowestSetBit_spec h).1
  rw [BitVec.toNat_ofNat]
  omega

/-- The completion of a wait ends as every completed step does (R95, R205). -/
theorem State.completeWait_completes (s : State) (m : Word) :
    TimersTick s (s.completeWait m) ∧ (s.completeWait m).stepDone = true :=
  ⟨State.stepTick_timers
    { (s.setReg s.waitReg (BitVec.ofNat 8 (lowestSetBit m))).advance .next with status := .run }, rfl⟩

/-- The completion of a wait writes V[WAIT_REG] and five parts (R205). -/
theorem Frame.completeWait {parts : List Part} {regs : List Reg} (h : Frame parts regs s t) {m : Word}
    (hw : t.waitReg ∈ regs := by simp) (hl : [Part.pc, .status, .dt, .st, .stepDone] ⊆ parts := by simp) :
    Frame parts regs s (t.completeWait m) := by
  have hwait : Unchanged [.pc, .status, .dt, .st, .stepDone] t (t.completeWait m) := fun p hp => by
    cases p <;> simp_all [Part.same]
  exact h.trans ⟨hwait.mono hl, fun r hr => t.reg_completeWait_other m (ne_of_mem_of_not_mem hw hr).symm⟩

theorem State.keyRelease_completes {m : Word} (hw : s.status = .waitKey) (hen : s.runEnable = true) (hm : m ≠ 0) :
    s.keyRelease m = s.completeWait m := if_pos ⟨hw, hen, hm⟩

/-- The moves that end a wait: R97's row of WAIT_KEY. -/
theorem waitKey_left {u : State} (hw : s.status = .waitKey) (hu : step s = .next u) (hleft : u.status ≠ .waitKey) :
    (∃ m, (nextMove s).1 = .keyRelease m ∧ m ≠ 0 ∧ s.runEnable = true) ∨ Clears s := by
  have htable := statusMovesOnlyAsTheTableSays s u hu
  cases hm : (nextMove s).1 <;> simp only [hm] at htable
  case reset => exact .inr (.inl hm)
  case load blob =>
    refine .inr (.inr ⟨blob, hm, by_contra fun hlen => hleft ?_⟩)
    rw [htable, if_neg hlen, hw]
  case keyRelease m =>
    refine .inl ⟨m, rfl, by_contra fun hno => hleft ?_⟩
    rw [htable, if_neg fun ⟨_, hen, hmask⟩ => hno ⟨hmask, hen⟩, hw]
  case quiet =>
    rw [if_neg (by simp [hw])] at htable
    exact absurd (htable.trans hw) hleft
  all_goals exact absurd (htable.trans hw) hleft

/-- Settles O18: the release writes the key and ends as a completed step does; a zero mask is dropped; and R97 has no
other way out of the wait. -/
theorem keyReleaseCompletesTheWait : Obligations.KeyReleaseCompletesTheWait := by
  refine ⟨fun s m hmove hw hen hm => ?_, fun s m hmove _ hm => ?_, fun s u => waitKey_left⟩
  · have hrelease : s.atInstant.keyRelease m = s.atInstant.completeWait m := State.keyRelease_completes hw hen hm
    obtain ⟨hset, hbelow⟩ := lowestSetBit_spec hm
    obtain ⟨htick, hdone⟩ := s.atInstant.completeWait_completes m
    obtain ⟨hparts, hregs⟩ : Frame [.pc, .status, .dt, .st, .stepDone] [s.waitReg] s.atInstant
      (s.atInstant.completeWait m) := Frame.refl.completeWait
    refine ⟨_, _, (step_of_move hmove).trans (congrArg Host.Outcome.next hrelease), hset, hbelow, ?_, hregs,
      s.atInstant.completeWait_pc m, s.atInstant.completeWait_status m, htick, hdone, hparts⟩
    exact (congrArg BitVec.toNat (s.atInstant.reg_completeWait_self m)).trans (lowestSetBit_toNat hm)
  · exact (step_of_move hmove).trans (congrArg Host.Outcome.next (State.keyRelease_dropped (.inr (.inr hm))))

end Sys2Proof.Machine
end

section
/-! SUPPORT. Fatal conditions and load errors (60_exceptions.md): what a step that halts leaves, and a `Load` that does not
fit (R215, R216, R222, R224). -/

namespace Sys2Proof.Machine

variable {s t u : State} {i : Instr}

/-- In RUN, an instruction enters HALTED only by raising, and then it leaves what R222 says. -/
theorem exec_halts (h : exec i s = .next t) (hs : s.status = .run) (ht : t.status = .halted) :
    i.RaisesIn s ∧ HaltsWith i.raiseCode s t := by
  obtain ⟨hr, -, -⟩ | ⟨-, -, hwait⟩ | ⟨-, -, hrun⟩ := exec_status_of_run h hs
  · exact ⟨hr, (everyInstructionKeepsItsFrame i s t h).2 hr⟩
  · exact absurd (hwait.symm.trans ht) (by decide)
  · exact absurd (hrun.symm.trans ht) (by decide)

/-- Settles O25: a faulting fetch halts; an Undefined opcode leaves RUN; an instruction that halts has raised, and the end
of its step adds nothing. -/
theorem fatalConditionsArePrecise : Obligations.FatalConditionsArePrecise := by
  intro s u hs hu hhalted
  rcases stepping_cases s hs hu with ⟨hpc, rfl⟩ | ⟨op, hop, ⟨r, -, rfl⟩ | ⟨i, t, hd, ht, rfl⟩⟩
  · exact .inl ⟨hpc, halt_haltsWith s.atInstant _⟩
  · simp [hs.status_eq] at hhalted
  · rw [State.finishStep_status] at hhalted
    obtain ⟨hr, hframe⟩ := exec_halts ht hs.status_eq hhalted
    rw [t.finishStep_halted hhalted]
    exact .inr ⟨op, i, hop, hd, raisesIn_atInstant.1 hr, hframe⟩

/-- A `Load` of more bytes than the program area holds only sets `load_error` (R216). -/
theorem State.loadProgram_oversized {blob : List Byte} (h : 3583 < blob.length) :
    s.loadProgram blob = { s with loadError := true } := if_pos h

/-- Settles O17: the move's whole effect is the one write of `load_error`. -/
theorem oversizedLoadOnlyRaisesLoadError : Obligations.OversizedLoadOnlyRaisesLoadError := fun _ _ hmove hlen =>
  ⟨_, (step_of_move hmove).trans (congrArg Host.Outcome.next (State.loadProgram_oversized hlen)), rfl,
    Frame.refl.setLoadError⟩

end Sys2Proof.Machine
end

section
/-! SUPPORT. Reset and Load (70_reset_and_hazards.md): the contents memory is seeded with, the cleared registers, and when
the host's `Load` is taken (R48, R240, R242, R47). -/

namespace Sys2Proof.Machine

variable {s t : State} {blob : List Byte}

/-! The seeded memory (R31, R33, R48) -/

theorem Memory.initial_font (ps : Params) (k : Fin 80) :
    Memory.initial ps (ps.fontBase.val + k.val) = ps.fontData[k] := by
  have hk : k.val < fontLength := k.isLt
  simp [Memory.initial, hk]

theorem Memory.initial_outside_font {ps : Params} {a : Nat}
    (h : ¬(ps.fontBase.val ≤ a ∧ a < ps.fontBase.val + 80)) : Memory.initial ps a = 0 :=
  dif_neg fun ⟨hle, (hlt : a - ps.fontBase.val < 80)⟩ => h ⟨hle, by omega⟩

/-- Outside the program's bytes, memory with a blob alone in it reads as seeded: FONT_BASE is at most 0x1B0, so the font
ends below the program. -/
theorem seededMemory_of_program (hmem : t.mem = Memory.writeBytes t.params [] 0x200 blob) :
    SeededMemory blob.length t := by
  have outside : ∀ a, ¬(0x200 ≤ a ∧ a < 0x200 + blob.length) → t.byte a = Memory.initial t.params a := fun a ha => by
    rw [State.byte, hmem, Memory.read_writeBytes_outside [] _ blob a (by omega), Memory.read]
  refine ⟨fun k => ?_, fun a _ hfont hprogram => ?_⟩
  · have hbase := t.params.fontBase.isLt
    rw [outside _ (by omega), Memory.initial_font]
  · rw [outside a hprogram, Memory.initial_outside_font hfont]

/-- Each byte of a blob that fits stands in its place. -/
theorem byte_of_program (hmem : t.mem = Memory.writeBytes t.params [] 0x200 blob) (hlen : blob.length ≤ 3583) {k : Nat}
    (hk : k < blob.length) : some (t.byte (0x200 + k)) = blob[k]? := by
  have hend : 0x200 + blob.length ≤ memMax + 1 := Nat.add_le_add_left hlen 0x200
  rw [State.byte, hmem, Memory.read_writeBytes_inside Memory.nil_wf _ blob k hk hend, List.getElem?_eq_getElem hk]

/-! The cleared registers (R240, R242) -/

theorem State.reset_cleared : ClearedRegisters State.reset :=
  ⟨by decide, rfl, rfl, rfl, rfl, rfl, by decide, rfl, rfl, rfl, rfl, rfl⟩

theorem State.powerOnReset_cleared : ClearedRegisters s.powerOnReset := State.reset_cleared

/-- A `Load` that fits leaves the registers cleared and only the blob in memory, and the block runs. -/
theorem State.loadProgram_taken (hlen : blob.length ≤ 3583) :
    ClearedRegisters (s.loadProgram blob) ∧
      (s.loadProgram blob).mem = Memory.writeBytes (s.loadProgram blob).params [] 0x200 blob ∧
      (s.loadProgram blob).status = .run := by
  obtain ⟨hlong, -⟩ | ⟨-, hload⟩ := s.loadProgram_cases blob
  · exact absurd hlen (Nat.not_le_of_lt hlong)
  · rw [hload]
    exact ⟨State.reset_cleared, rfl, rfl⟩

/-- Settles O15: Reset keeps the values of `State.reset` in every part of R48, and seeds memory with no program in it. -/
theorem resetRestoresEveryResetValue : Obligations.ResetRestoresEveryResetValue :=
  ⟨⟨State.reset_cleared, seededMemory_of_program (blob := []) rfl, rfl⟩, fun _ hmove =>
    ⟨_, step_of_move hmove, State.powerOnReset_cleared, seededMemory_of_program (blob := []) rfl, rfl, rfl, rfl, rfl, rfl⟩⟩

/-! When a `Load` is taken (R47, log 13) -/

/-- A `Load` at the head of the script waits there while the loop runs, and is the host's move otherwise. -/
theorem nextMove_load {rest : List HostMove} (h : s.script = .load blob :: rest) :
    nextMove s = if s.status = .run ∧ s.runEnable = true then (.quiet, s.script) else (.load blob, rest) := by
  simp only [nextMove, h, HostMove.isLoad, true_and]

/-- Where the host's move is a `Load`, the loop is stopped. -/
theorem stopped_of_load (h : (nextMove s).1 = .load blob) : ¬(s.status = .run ∧ s.runEnable = true) := by
  obtain ⟨-, hmove⟩ | ⟨_, _, -, -, -, hmove⟩ | ⟨m, _, -, hstopped, hmove⟩ := nextMove_cases s <;> rw [hmove] at h
  · cases h
  · cases h
  · obtain rfl : m = .load blob := h
    exact fun hrun => hstopped ⟨rfl, hrun⟩

theorem State.hostKeepsDuty_holds (s : State) : s.hostKeepsDuty = true := by
  unfold State.hostKeepsDuty
  split
  · next hmove => simpa [imp_iff_not_or] using stopped_of_load hmove
  · rfl

/-- Settles O16: a `Load` that is taken is a reset with the blob in memory; the duty and the waiting are what `nextMove`
gives for a `Load`. -/
theorem loadRunsItsProgram : Obligations.LoadRunsItsProgram := by
  refine ⟨fun s blob hmove hlen => ?_, State.hostKeepsDuty_holds,
    fun s blob rest hscript => ⟨fun hrun => ?_, fun hstopped => ?_⟩⟩
  · obtain ⟨hcleared, hmem, hstatus⟩ := s.atInstant.loadProgram_taken hlen
    exact ⟨_, step_of_move hmove, hcleared, seededMemory_of_program hmem, hstatus, fun _ => byte_of_program hmem hlen⟩
  · have hwaits := (nextMove_load hscript).trans (if_pos hrun)
    exact ⟨⟨congrArg Prod.fst hwaits, hrun⟩, congrArg Prod.snd hwaits⟩
  · have htaken := (nextMove_load hscript).trans (if_neg hstopped)
    exact ⟨congrArg Prod.fst htaken, congrArg Prod.snd htaken⟩

end Sys2Proof.Machine
end
